-- ==== Sys2Proof/Word.lean ====
section
/-! DEFINITION. The words of the machine: `R[t]` and CPACR are 32-bit values (10_state R10, R30), and a program is
stored a byte at a time (20_memory section 2). -/

namespace Sys2Proof

/-- A 32-bit value: a general register, CPACR, an instruction word. -/
abbrev Word := BitVec 32

/-- The unit in which a program is stored. -/
abbrev Byte := BitVec 8

end Sys2Proof
end

