-- ==== Sys2Proof/Config.lean ====
section
/-! DEFINITION. What an implementation fixes (00_scope section 5, every parameter of the table but the per-step inputs,
which are in `Machine.Context`), and the free values of the spec's `draw(N)` (00_scope section 6). -/

namespace Sys2Proof

/-- The CONSTRAINED UNPREDICTABLE choice for `cp10 == 0b10` (41 R83). -/
inductive Cp10Reserved where
  | as00
  | as01
  | as11
  | pl1undef
  deriving DecidableEq, Repr, Inhabited

/-- When a write to CPACR takes effect on later consultations (70 R126). -/
inductive SyncModel where
  | immediate
  | untilSync
  deriving DecidableEq, Repr

/-- The parameters of 00_scope section 5. The spec fixes none of them (92 D17) and assumes no relation among them. -/
structure Config where
  /-- FEAT_AA32EL1: the AArch32 name CPACR exists (00 R2). -/
  featAA32EL1 : Bool
  /-- HaveEL(EL2). It is named only inside `EL2Enabled()`, which is an input of its own, so no rule reads it. -/
  haveEL2 : Bool
  /-- HaveEL(EL3). -/
  haveEL3 : Bool
  featAA64EL2 : Bool
  featAA32EL2 : Bool
  featAA64EL3 : Bool
  /-- Advanced SIMD and floating-point functionality is included (92 D18: one feature). -/
  haveFPASIMD : Bool
  /-- A trace unit with a System register interface is included. -/
  haveTraceSysRegs : Bool
  /-- ASEDIS is implemented as a RW field (10 R14). -/
  asedisRW : Bool
  /-- TRCDIS is implemented as a RW field (10 R18). -/
  trcdisRW : Bool
  cp10Reserved : Cp10Reserved
  featETMv4 : Bool
  featETE : Bool
  /-- RES0_READBACK: an always-RES0 bit stores what is written (10 R17). -/
  res0Readback : Bool
  syncModel : SyncModel
  deriving DecidableEq, Repr

/-- `draw(1)`, numbered by the counter `State.draws`: a free bit, under no law (92 D7). -/
opaque Config.drawBit : Nat → Bool

/-- `draw(2)`, numbered by the counter `State.draws`. -/
opaque Config.drawPair : Nat → BitVec 2

/-- The free choice, made afresh at each consultation, of the storage that a gated instruction sees (70 R126). -/
opaque Config.drawIndex : Nat → Nat

/-- The implementation's choice for `cp10 == 0b10`, which REF leaves open (95 section 0): no value is picked. -/
opaque Config.implementedCp10Reserved : Cp10Reserved

/-- The reference configuration REF of 95_test_vectors section 0. DESIGN CHOICE (log 1): it is the configuration of
`State.reset`; 92 D17 calls it a test fixture, not a claim about any chip. -/
def Config.reference : Config where
  featAA32EL1 := true
  haveEL2 := true
  haveEL3 := true
  featAA64EL2 := true
  featAA32EL2 := true
  featAA64EL3 := true
  haveFPASIMD := true
  haveTraceSysRegs := true
  asedisRW := true
  trcdisRW := true
  cp10Reserved := Config.implementedCp10Reserved
  featETMv4 := true
  featETE := false
  res0Readback := false
  syncModel := .untilSync

end Sys2Proof
end

