-- ==== Sys2Proof/Syntax.lean ====
section
/-! DEFINITION. The instructions: one constructor per row of spec/opcode_table.json (MRC and MCR of CPACR, each in A32 and
in T32). -/

namespace Sys2Proof

/-- The two instruction sets of 30_encoding R54. Which is current is an input. -/
inductive InstrSet where
  | a32
  | t32
  deriving DecidableEq, Repr

/-- The condition `<c>` (30_encoding R52's table), in the order of the table. The value `0b1111` of the A32 field is no
condition: it is another encoding space (R54). -/
inductive Cond where
  | eq
  | ne
  | cs
  | cc
  | mi
  | pl
  | vs
  | vc
  | hi
  | ls
  | ge
  | lt
  | gt
  | le
  | al
  deriving DecidableEq, Repr

/-- The direction of the transfer (30_encoding R51): `read` is MRC, `write` is MCR. -/
inductive Direction where
  | read
  | write
  deriving DecidableEq, Repr

/-- The instructions in scope. The register selector is the constant tuple of R50 in all four; `rt` is the 4-bit `Rt`
field (R55). -/
inductive Instr where
  /-- `MRC<c> p15, 0, <Rt>, c1, c0, 2`, A32 encoding (40 R60). -/
  | mrcA32 (cond : Cond) (rt : BitVec 4)
  /-- `MCR<c> p15, 0, <Rt>, c1, c0, 2`, A32 encoding (40 R61). -/
  | mcrA32 (cond : Cond) (rt : BitVec 4)
  /-- `MRC p15, 0, <Rt>, c1, c0, 2`, T32 encoding (40 R60). -/
  | mrcT32 (rt : BitVec 4)
  /-- `MCR p15, 0, <Rt>, c1, c0, 2`, T32 encoding (40 R61). -/
  | mcrT32 (rt : BitVec 4)
  deriving DecidableEq, Repr

/-- The instruction set whose encoding the instruction has. -/
def Instr.set : Instr → InstrSet
  | .mrcA32 _ _ => .a32
  | .mcrA32 _ _ => .a32
  | .mrcT32 _ => .t32
  | .mcrT32 _ => .t32

/-- The `Rt` field. -/
def Instr.rt : Instr → BitVec 4
  | .mrcA32 _ rt => rt
  | .mcrA32 _ rt => rt
  | .mrcT32 rt => rt
  | .mcrT32 rt => rt

/-- Read or write. -/
def Instr.direction : Instr → Direction
  | .mrcA32 _ _ => .read
  | .mcrA32 _ _ => .write
  | .mrcT32 _ => .read
  | .mcrT32 _ => .write

/-- The condition field, for the encodings that have one (R54: the T32 form has none). -/
def Instr.cond? : Instr → Option Cond
  | .mrcA32 c _ => some c
  | .mcrA32 c _ => some c
  | .mrcT32 _ => none
  | .mcrT32 _ => none

end Sys2Proof
end

