-- ==== Sys2Proof/WellFormed.lean ====
section
/-! DEFINITION. Which instructions the spec admits: the index set of `t` of 10_state R30 and 40 R68 (92 D9). -/

namespace Sys2Proof

/-- `t` is in 0..14 for the A32 encoding and in 0..12 or 14 for the T32 encoding (10 R30, 40 R68). -/
def rtAdmitted : InstrSet → BitVec 4 → Bool
  | .a32, rt => rt != 15#4
  | .t32, rt => rt != 15#4 && rt != 13#4

/-- The instruction names a register the spec admits for its encoding. The other operand, the condition, is well formed
by its type. -/
def Instr.wf (i : Instr) : Bool := rtAdmitted i.set i.rt

end Sys2Proof
end

