-- ==== Sys2Proof/Decode.lean ====
section
/-! DEFINITION. Decoder and encoder (30_encoding). The five field values are the spec's (R50); the positions of the fields
and the conditions' numbers are the standard layout of R54, which the spec marks as general knowledge. PRESUMED (log 11).
The order of the bytes in memory is 20_memory section 2. PRESUMED (log 9). -/

namespace Sys2Proof

/-- A point of the System register encoding space (10 R32). -/
structure SysRegTuple where
  coproc : BitVec 4
  opc1 : BitVec 3
  crn : BitVec 4
  crm : BitVec 4
  opc2 : BitVec 3
  deriving DecidableEq, Repr

/-- CPACR's point of the System register encoding space (30 R50). -/
def cpacrTuple : SysRegTuple where
  coproc := 0b1111#4
  opc1 := 0b000#3
  crn := 0b0001#4
  crm := 0b0000#4
  opc2 := 0b010#3

/-- Why the decoder has no instruction for some bytes. -/
inductive Reject where
  /-- Fewer than four bytes: both encodings are 32 bits wide (10 R36). -/
  | truncated
  /-- A32 bits 31:28 are `0b1111`, a different encoding space, out of scope (30 R54). -/
  | condReserved (w : Word)
  /-- The fixed bits (27:24 and 4; in T32 also 31:28) are not those of MRC and MCR (30 R54): no instruction in scope. -/
  | notRegisterMove (w : Word)
  /-- MRC or MCR of a register that is not CPACR: refused rather than guessed (30 R57). -/
  | otherRegister (tuple : SysRegTuple)
  /-- `Rt` outside the admitted set (40 R68). -/
  | rtNotAdmitted (set : InstrSet) (rt : BitVec 4)
  deriving DecidableEq, Repr

/-- The number of a condition in the A32 `cond` field. PRESUMED (log 12); 95 section 2.6 shows NE as 1 and EQ as 0. -/
def encodeCond : Cond → BitVec 4
  | .eq => 0
  | .ne => 1
  | .cs => 2
  | .cc => 3
  | .mi => 4
  | .pl => 5
  | .vs => 6
  | .vc => 7
  | .hi => 8
  | .ls => 9
  | .ge => 10
  | .lt => 11
  | .gt => 12
  | .le => 13
  | .al => 14

/-- The condition of an A32 `cond` field; none for `0b1111`. -/
def decodeCond (c : BitVec 4) : Option Cond :=
  match c.toNat with
  | 0 => some .eq
  | 1 => some .ne
  | 2 => some .cs
  | 3 => some .cc
  | 4 => some .mi
  | 5 => some .pl
  | 6 => some .vs
  | 7 => some .vc
  | 8 => some .hi
  | 9 => some .ls
  | 10 => some .ge
  | 11 => some .lt
  | 12 => some .gt
  | 13 => some .le
  | 14 => some .al
  | _ => none

/-- The fields of the layout of 30 R54. -/
structure WordFields where
  cond : BitVec 4
  op : BitVec 4
  opc1 : BitVec 3
  l : BitVec 1
  crn : BitVec 4
  rt : BitVec 4
  coproc : BitVec 4
  opc2 : BitVec 3
  one : BitVec 1
  crm : BitVec 4
  deriving DecidableEq, Repr

/-- The fields of an instruction word: 31:28, 27:24, 23:21, 20, 19:16, 15:12, 11:8, 7:5, 4, 3:0 (30 R54). -/
def splitWord (w : Word) : WordFields where
  cond := w.extractLsb' 28 4
  op := w.extractLsb' 24 4
  opc1 := w.extractLsb' 21 3
  l := w.extractLsb' 20 1
  crn := w.extractLsb' 16 4
  rt := w.extractLsb' 12 4
  coproc := w.extractLsb' 8 4
  opc2 := w.extractLsb' 5 3
  one := w.extractLsb' 4 1
  crm := w.extractLsb' 0 4

/-- The word with the given fields. -/
def joinWord (f : WordFields) : Word :=
  f.cond ++ f.op ++ f.opc1 ++ f.l ++ f.crn ++ f.rt ++ f.coproc ++ f.opc2 ++ f.one ++ f.crm

/-- The selector fields of a word. -/
def WordFields.tuple (f : WordFields) : SysRegTuple where
  coproc := f.coproc
  opc1 := f.opc1
  crn := f.crn
  crm := f.crm
  opc2 := f.opc2

/-- The A32 instruction of a word (30 R54, R57). -/
def decodeA32 (w : Word) : Except Reject Instr :=
  let f := splitWord w
  match decodeCond f.cond with
  | none => .error (.condReserved w)
  | some c =>
    if f.op ≠ 0b1110#4 ∨ f.one ≠ 1#1 then .error (.notRegisterMove w)
    else if f.tuple ≠ cpacrTuple then .error (.otherRegister f.tuple)
    else if rtAdmitted .a32 f.rt = false then .error (.rtNotAdmitted .a32 f.rt)
    else if f.l = 1#1 then .ok (.mrcA32 c f.rt)
    else .ok (.mcrA32 c f.rt)

/-- The T32 instruction of `hw1 : hw2`, `hw1` in bits 31:16 (30 R54, R57). -/
def decodeT32 (w : Word) : Except Reject Instr :=
  let f := splitWord w
  if f.cond ≠ 0b1110#4 ∨ f.op ≠ 0b1110#4 ∨ f.one ≠ 1#1 then .error (.notRegisterMove w)
  else if f.tuple ≠ cpacrTuple then .error (.otherRegister f.tuple)
  else if rtAdmitted .t32 f.rt = false then .error (.rtNotAdmitted .t32 f.rt)
  else if f.l = 1#1 then .ok (.mrcT32 f.rt)
  else .ok (.mcrT32 f.rt)

/-- The instruction of a word in an instruction set. -/
def decodeWord : InstrSet → Word → Except Reject Instr
  | .a32, w => decodeA32 w
  | .t32, w => decodeT32 w

/-- The word of four bytes, the first at the lowest address: one little-endian word in A32; two little-endian halfwords,
`hw1` first, in T32 (20_memory section 2). -/
def wordOfBytes : InstrSet → Byte → Byte → Byte → Byte → Word
  | .a32, b0, b1, b2, b3 => b3 ++ b2 ++ b1 ++ b0
  | .t32, b0, b1, b2, b3 => b1 ++ b0 ++ b3 ++ b2

/-- The four bytes of a word as they lie in memory (20_memory section 2). -/
def bytesOfWord : InstrSet → Word → List Byte
  | .a32, w => [w.extractLsb' 0 8, w.extractLsb' 8 8, w.extractLsb' 16 8, w.extractLsb' 24 8]
  | .t32, w => [w.extractLsb' 16 8, w.extractLsb' 24 8, w.extractLsb' 0 8, w.extractLsb' 8 8]

/-- Total on any bytes: the instruction they begin with and the bytes after it, or the reason there is none. -/
def decode (set : InstrSet) : List Byte → Except Reject (Instr × List Byte)
  | b0 :: b1 :: b2 :: b3 :: rest =>
    match decodeWord set (wordOfBytes set b0 b1 b2 b3) with
    | .ok i => .ok (i, rest)
    | .error r => .error r
  | _ => .error .truncated

/-- The `L` bit: 1 selects MRC, 0 selects MCR (30 R54). -/
def encodeDirection : Direction → BitVec 1
  | .read => 1#1
  | .write => 0#1

/-- The word of an instruction, from the same layout (30 R54) and tuple (R50). T32 bits 31:28 are those of AL. -/
def encodeWord (i : Instr) : Word :=
  joinWord
    { cond := match i.cond? with
        | some c => encodeCond c
        | none => 0b1110#4
      op := 0b1110#4
      opc1 := cpacrTuple.opc1
      l := encodeDirection i.direction
      crn := cpacrTuple.crn
      rt := i.rt
      coproc := cpacrTuple.coproc
      opc2 := cpacrTuple.opc2
      one := 1#1
      crm := cpacrTuple.crm }

/-- The bytes of an instruction as they lie in memory. -/
def encode (i : Instr) : List Byte := bytesOfWord i.set (encodeWord i)

/-- The instruction bits of a row of the opcode table as one word: bits above `nbits` are 0. The table numbers all four
rows as one 32-bit number, with a T32 row's `hw1` in bits 31:16. DESIGN CHOICE (log 10). -/
def tableWord (nbits w : Nat) : Word := BitVec.ofNat 32 (w % 2 ^ nbits)

/-- The instruction set a table word is read in. The layouts agree when bits 31:28 are `1110`, and the set is an input of
the machine, so a choice is due: T32 where the T32 decoder accepts the word, A32 elsewhere. DESIGN CHOICE (log 10). -/
def tableSet (w : Word) : InstrSet :=
  match decodeWord .t32 w with
  | .ok _ => .t32
  | .error _ => .a32

/-- The instruction the decoder reads from an instruction whose bits are `w`, numbered as the opcode table numbers them. -/
def decodeTableWord (nbits w : Nat) : Option Instr :=
  let v := tableWord nbits w
  match decode (tableSet v) (bytesOfWord (tableSet v) v) with
  | .ok (i, _) => some i
  | .error _ => none

end Sys2Proof
end

