-- ==== Sys2Proof/Machine/State.lean ====
section
/-! DEFINITION. The state of the machine, as plain data: the register CPACR (10_state section 1), the state the spec names
and does not describe (section 2), the environment's inputs, and the machine right after reset (R38). -/

namespace Sys2Proof.Machine

/-- The Exception levels, the values of `PSTATE.EL` (60 R110). -/
inductive ExceptionLevel where
  | el0
  | el1
  | el2
  | el3
  deriving DecidableEq, Repr

/-- The Privilege levels (60 R110). -/
inductive PrivilegeLevel where
  | pl0
  | pl1
  | pl2
  deriving DecidableEq, Repr

/-- The stored bit of TRCDIS: a bit, or the spec's mark `unknown` (10 R12, R38). -/
inductive TrcdisBit where
  | known (b : Bool)
  | unknown
  deriving DecidableEq, Repr

/-- The stored state `S` of CPACR, its "actual value" (10 R12). One per PE, not banked per Security state. -/
structure Cpacr where
  asedis : Bool
  trcdis : TrcdisBit
  cp11 : BitVec 2
  cp10 : BitVec 2
  /-- The always-reserved bits at their positions, used only with RES0_READBACK (10 R17). -/
  res0 : Word
  deriving DecidableEq, Repr

/-- The condition flags, which only a condition `<c>` reads (10 R37). PRESUMED names (log 12). -/
structure Flags where
  n : Bool
  z : Bool
  c : Bool
  v : Bool
  deriving DecidableEq, Repr

/-- The per-step inputs. No relation is assumed among them (92 D15). A Boolean is `true` where the spec writes `'1'`. -/
structure Context where
  /-- `PSTATE.EL` (10 R35). -/
  el : ExceptionLevel
  /-- `IsCurrentSecurityState(SS_Secure)` (10 R35). -/
  isSecure : Bool
  /-- Whether EL1 is using AArch32, which bounds the PL0 gating rules (41 R94). -/
  el1UsingAArch32 : Bool
  /-- `ELUsingAArch32(EL2)` (10 R35). -/
  el2UsingAArch32 : Bool
  /-- `ELUsingAArch32(EL3)` (10 R35). -/
  el3UsingAArch32 : Bool
  /-- `EL2Enabled()` (10 R35). -/
  el2Enabled : Bool
  /-- `EL3SDDUndef()` (10 R35). -/
  el3SDDUndef : Bool
  /-- `EL3SDDUndefPriority()` (10 R35). -/
  el3SDDUndefPriority : Bool
  /-- `NSACR.cp10` (10 R33). -/
  nsacrCp10 : Bool
  /-- `NSACR.NSASEDIS` (10 R33). -/
  nsacrNsasedis : Bool
  /-- `NSACR.NSTRCDIS` (10 R33). -/
  nsacrNstrcdis : Bool
  /-- `HSTR_EL2.T1` (10 R34). -/
  hstrEl2T1 : Bool
  /-- `HSTR.T1` (10 R34), a storage of its own beside `HSTR_EL2.T1`. -/
  hstrT1 : Bool
  /-- `CPTR_EL2.TCPAC` (10 R34). -/
  cptrEl2Tcpac : Bool
  /-- `HCPTR.TCPAC` (10 R34), a storage of its own beside `CPTR_EL2.TCPAC`. -/
  hcptrTcpac : Bool
  /-- `CPTR_EL3.TCPAC` (10 R34). -/
  cptrEl3Tcpac : Bool
  /-- The current instruction set (30 R54: "the choice of set is an input"). -/
  iset : InstrSet
  /-- The condition that an enclosing IT block supplies to a T32 instruction (30 R54); `none` outside one. -/
  itCond : Option Cond
  deriving DecidableEq, Repr

/-- The part of the PE that CPACR's page does not describe: general registers, program counter, flags, context. The
environment supplies it where the spec leaves it unconstrained (70 R121; the effect of a gated instruction). -/
structure Pe where
  /-- `R[0]` to `R[14]` (10 R30). -/
  regs : Vector Word 15
  /-- The program counter, with no stated width (40 R70). -/
  pc : Nat
  flags : Flags
  ctx : Context
  deriving DecidableEq, Repr

/-- The names of the Advanced SIMD and floating-point registers and their views (10 R31). -/
inductive FpRegister where
  | d (n : Fin 32)
  | s (n : Fin 32)
  | q (n : Fin 16)
  deriving DecidableEq, Repr

/-- The System registers that cp10 gates (41 R82). -/
inductive FpSystemRegister where
  | fpscr
  | fpsid
  | mvfr0
  | mvfr1
  | mvfr2
  | fpexc
  deriving DecidableEq, Repr

/-- An instruction that CPACR can make UNDEFINED. No source lists the instructions, so a class is what the model takes as
given (41 R82, R85, R86). -/
inductive GatedInstr where
  /-- An encoding that is a floating-point encoding, whether or not it is also an Advanced SIMD encoding. -/
  | floatingPoint
  /-- An Advanced SIMD encoding that is not also a floating-point encoding (41 R85). -/
  | advancedSimdOnly
  /-- Any other access to D0-D31 or a view of them (41 R82). -/
  | fpRegisterAccess (r : FpRegister)
  /-- An access to FPSCR, FPSID, MVFR0, MVFR1, MVFR2 or FPEXC (41 R82). -/
  | fpSystemRegisterAccess (r : FpSystemRegister)
  /-- A System register access to an implemented trace register (41 R86). -/
  | traceSystemRegisterAccess
  deriving DecidableEq, Repr

/-- What the environment does at a step boundary (log 2). A step takes one. -/
inductive Input where
  /-- The PE executes the instruction at `pc`. -/
  | proceed
  /-- The per-step inputs change. -/
  | setContext (ctx : Context)
  /-- A context synchronisation event (70 R126). -/
  | contextSync
  /-- A Warm reset (70 R120), with the state it leaves outside CPACR, which is unconstrained (R121). -/
  | warmReset (pe : Pe)
  /-- The PE is about to execute an instruction of a gated class. If CPACR permits it, the other controls of 41 R90 and the
  instruction itself, none of them in the spec, leave `after`. -/
  | gated (instr : GatedInstr) (after : Pe)
  /-- An access to a trace register through the memory-mapped external debug interface (41 R89). -/
  | externalDebugTraceAccess
  /-- A write of the same storage under the name CPACR_EL1 (00 R5, 60 R112). -/
  | cpacrEl1Write (stored : Cpacr)
  /-- A byte of the program handed to the machine (70 R123). -/
  | storeByte (address : Nat) (value : Byte)
  deriving DecidableEq, Repr

/-- What caused an exception outcome (60 R104: "together with the instruction that caused it"). -/
inductive Cause where
  | instr (i : Instr)
  | gated (g : GatedInstr)
  deriving DecidableEq, Repr

/-- The exceptions of 60 R100 to R103, before their argument. -/
inductive ExceptionKind where
  | undefined
  | hypTrap
  | sysAccessTrap (target : ExceptionLevel)
  deriving DecidableEq, Repr

/-- The result of `Check(ctx)` (40 R62). -/
inductive AccessResult where
  | allow
  | take (e : ExceptionKind)
  deriving DecidableEq, Repr

/-- What stops the machine. No fault carries a state: a step that ends in one changes nothing (60 R104). -/
inductive Fault where
  /-- `Undefined` (60 R100), raised by MRC, MCR and gated instructions. Safe: terminal where the hardware enters a handler. -/
  | undefined (cause : Cause)
  /-- `HypTrap(0x03)` (60 R101), raised by MRC and MCR at EL1. Safe: terminal where the hardware enters a handler. -/
  | hypTrap (value : Nat) (cause : Cause)
  /-- `SysAccessTrap(EL2, 0x03)` and `SysAccessTrap(EL3, 0x03)` (60 R102, R103), raised by MRC and MCR at EL1 and EL2. Safe:
  terminal where the hardware enters a handler. -/
  | sysAccessTrap (target : ExceptionLevel) (value : Nat) (cause : Cause)
  /-- Raised by the fetch where no byte of the program stands at the address (log 8). Safe: the model goes no further. -/
  | noProgramByte (address : Nat)
  deriving DecidableEq, Repr

/-- What the model gives no meaning. -/
inductive Refusal where
  /-- An instruction without a meaning. No arm raises it. Safe. -/
  | notModelled (mnemonic : String)
  /-- The decoder rejects the bytes at `pc` (30 R57). Safe. -/
  | notDecoded (reason : Reject)
  /-- MRC or MCR with a register the spec does not admit (40 R68: "the model refuses any other t"). Safe. -/
  | rtNotAdmitted (set : InstrSet) (rt : BitVec 4)
  /-- MCR of a value with a 1 in a RES0 bit (10 R17: "the model refuses it"). Safe. -/
  | writesRes0 (value : Word)
  /-- A gated instruction where the spec gives no gating rule (41 R94, 00 R2). Safe. -/
  | gatingNotSpecified (g : GatedInstr)
  deriving DecidableEq, Repr

/-- The program's bytes, addresses strictly rising (log 8). -/
abbrev Memory := List Host.Cell

/-- The machine. -/
structure State where
  /-- The implementation's parameters, which no step writes (00 section 5). -/
  config : Config
  /-- The stored state `S` of CPACR (10 R12). -/
  cpacr : Cpacr
  /-- The storages from before each write since the last context synchronisation event, oldest first (70 R126). -/
  pending : List Cpacr
  /-- `R[0]` to `R[14]` (10 R30). -/
  regs : Vector Word 15
  /-- The program counter (10 R36). -/
  pc : Nat
  flags : Flags
  ctx : Context
  /-- The program (log 8). The spec gives the machine no memory (20 R40, R41, R43). -/
  memory : Memory
  /-- The environment's schedule, the next entry first (log 2). -/
  inputs : List Input
  /-- How many free values have been drawn: the model's own field (log 17). -/
  draws : Nat
  deriving DecidableEq, Repr

/-- The storage right after a Warm reset (10 R38). -/
def Cpacr.reset : Cpacr where
  asedis := false
  trcdis := .unknown
  cp11 := 0b00#2
  cp10 := 0b00#2
  res0 := 0#32

/-- DESIGN CHOICE (log 6, 7): Secure PL1 at EL3 using AArch32, the context in which 95 P1 starts just after WarmReset, every
trap-control and NSACR bit 0. The spec leaves all of it unconstrained (70 R121). -/
def Context.reset : Context where
  el := .el3
  isSecure := true
  el1UsingAArch32 := true
  el2UsingAArch32 := true
  el3UsingAArch32 := true
  el2Enabled := false
  el3SDDUndef := false
  el3SDDUndefPriority := false
  nsacrCp10 := false
  nsacrNsasedis := false
  nsacrNstrcdis := false
  hstrEl2T1 := false
  hstrT1 := false
  cptrEl2Tcpac := false
  hcptrTcpac := false
  cptrEl3Tcpac := false
  iset := .a32
  itCond := none

/-- The machine right after reset. CPACR is as 10 R38 says; the rest is DESIGN CHOICE (log 1, 2, 3, 4, 5, 6, 7, 8, 17). -/
def State.reset : State where
  config := Config.reference
  cpacr := Cpacr.reset
  pending := []
  regs := Vector.replicate 15 0#32
  pc := 0
  flags := { n := false, z := false, c := false, v := false }
  ctx := Context.reset
  memory := []
  inputs := []
  draws := 0

end Sys2Proof.Machine
end

