-- ==== Sys2Proof/Machine/Flags.lean ====
section
/-! DEFINITION. The conditions `<c>` of MRC and MCR (30_encoding R52's table, 40 R63). No instruction in scope writes a flag
(10 R37), so there is no flag computation. PRESUMED (log 12): the spec lists the conditions' names and gives neither their
tests nor the flags. -/

namespace Sys2Proof.Machine

/-- Whether a condition passes. -/
def condPasses (c : Cond) (f : Flags) : Bool :=
  match c with
  | .eq => f.z
  | .ne => !f.z
  | .cs => f.c
  | .cc => !f.c
  | .mi => f.n
  | .pl => !f.n
  | .vs => f.v
  | .vc => !f.v
  | .hi => f.c && !f.z
  | .ls => !f.c || f.z
  | .ge => f.n == f.v
  | .lt => f.n != f.v
  | .gt => !f.z && (f.n == f.v)
  | .le => f.z || (f.n != f.v)
  | .al => true

/-- The condition under which a T32 instruction executes: the enclosing IT block's, or always (30 R54). -/
def itCondition (ctx : Context) : Cond := ctx.itCond.getD .al

end Sys2Proof.Machine
end

