-- ==== Sys2Proof/Machine/Operands.lean ====
section
/-! DEFINITION. The one operand form: the general register `R[t]` that the `Rt` field names (30_encoding R55, 10 R30). -/

namespace Sys2Proof.Machine

/-- The index of `R[t]`, where the encoding admits `t` (10 R30, 40 R68). -/
def regIndex (set : InstrSet) (rt : BitVec 4) : Option (Fin 15) :=
  if h : rt.toNat < 15 then
    if rtAdmitted set rt then some ⟨rt.toNat, h⟩ else none
  else none

/-- `R[t]` (10 R30). -/
def State.readReg (s : State) (t : Fin 15) : Word := s.regs[t.val]

/-- `R[t] <- v` (10 R30). -/
def State.writeReg (s : State) (t : Fin 15) (v : Word) : State := { s with regs := s.regs.set t.val v t.isLt }

end Sys2Proof.Machine
end

