-- ==== Sys2Proof/Machine/Views.lean ====
section
/-! DEFINITION. CPACR field by field: the layout of the register (10_state R10, R11), the Non-secure overrides (R13), the
effective value of each field, its direct read and its write (R14 to R27), and the whole register (R28, R29). -/

namespace Sys2Proof.Machine

/-- The seven fields of CPACR, most significant first (10 R10); a reserved one is named by its highest bit. -/
inductive CpacrField where
  | asedis
  | res30
  | trcdis
  | res27
  | cp11
  | cp10
  | res19
  deriving DecidableEq, Repr

/-- The lowest bit of a field: the column "bits" of the layout table, recovered from the field headings (10 R11). -/
def CpacrField.lsb : CpacrField → Nat
  | .asedis => 31
  | .res30 => 29
  | .trcdis => 28
  | .res27 => 24
  | .cp11 => 22
  | .cp10 => 20
  | .res19 => 0

/-- The column "width" of the layout table (10 R11). -/
def CpacrField.width : CpacrField → Nat
  | .asedis => 1
  | .res30 => 2
  | .trcdis => 1
  | .res27 => 4
  | .cp11 => 2
  | .cp10 => 2
  | .res19 => 20

/-- The column "mask in a 32-bit word" of the layout table: ones in the field's bits (10 R11). -/
def CpacrField.mask (f : CpacrField) : Word := (BitVec.allOnes f.width).setWidth 32 <<< f.lsb

/-- `NSview`: Non-secure state sees NSACR's overrides (10 R13). -/
def nsView (cfg : Config) (ctx : Context) : Bool := cfg.haveEL3 && ctx.el3UsingAArch32 && !ctx.isSecure

/-- `NS_FP_RAZWI` (10 R13). -/
def nsFpRazwi (cfg : Config) (ctx : Context) : Bool := nsView cfg ctx && !ctx.nsacrCp10

/-- `NS_ASEDIS_RAOWI` (10 R13). -/
def nsAsedisRaowi (cfg : Config) (ctx : Context) : Bool := nsView cfg ctx && ctx.nsacrNsasedis

/-- `NS_TRCDIS_RAOWI` (10 R13). -/
def nsTrcdisRaowi (cfg : Config) (ctx : Context) : Bool := nsView cfg ctx && ctx.nsacrNstrcdis

/-- The mask of all named fields, `0x90F00000` (10 R11). -/
def namedFields : Word :=
  CpacrField.asedis.mask ||| CpacrField.trcdis.mask ||| CpacrField.cp11.mask ||| CpacrField.cp10.mask

/-- The mask of all always-reserved bits, `0x6F0FFFFF` (10 R11). -/
def alwaysReserved : Word := CpacrField.res30.mask ||| CpacrField.res27.mask ||| CpacrField.res19.mask

/-- The free values one direct read may draw (10 R15, R19, R23). -/
structure ReadDraws where
  asedis : Bool
  trcdis : Bool
  cp11 : BitVec 2
  deriving DecidableEq, Repr

/-- `Eff_ASEDIS` (10 R15). -/
def effAsedis (cfg : Config) (ctx : Context) (S : Cpacr) : Bool :=
  if !cfg.haveFPASIMD then false
  else if nsAsedisRaowi cfg ctx then true
  else if !cfg.asedisRW then false
  else S.asedis

/-- The value of the stored TRCDIS bit: itself, or a fresh draw under the mark `unknown` (10 R19). -/
def trcdisValue (b : TrcdisBit) (draw : Bool) : Bool :=
  match b with
  | .known b => b
  | .unknown => draw

/-- `Eff_TRCDIS` (10 R19), `draw` being the `draw(1)` of this evaluation. -/
def effTrcdis (cfg : Config) (ctx : Context) (S : Cpacr) (draw : Bool) : Bool :=
  if !cfg.haveTraceSysRegs then false
  else if nsTrcdisRaowi cfg ctx then true
  else if !cfg.trcdisRW then false
  else trcdisValue S.trcdis draw

/-- `Eff_cp10` (10 R26). -/
def effCp10 (cfg : Config) (ctx : Context) (S : Cpacr) : BitVec 2 :=
  if !cfg.haveFPASIMD then 0b00#2
  else if nsFpRazwi cfg ctx then 0b00#2
  else S.cp10

/-- The direct read of bit 31 (10 R15): a draw where RES0 and RAO/WI both apply (92 D4, log 19). -/
def readAsedis (cfg : Config) (ctx : Context) (S : Cpacr) (u : ReadDraws) : Bool :=
  if !cfg.haveFPASIMD && nsAsedisRaowi cfg ctx then u.asedis else effAsedis cfg ctx S

/-- The direct read of bit 28 (10 R19): a draw where RES0 and RAO/WI both apply (92 D4, log 19). -/
def readTrcdis (cfg : Config) (ctx : Context) (S : Cpacr) (u : ReadDraws) : Bool :=
  if !cfg.haveTraceSysRegs && nsTrcdisRaowi cfg ctx then u.trcdis else effTrcdis cfg ctx S u.trcdis

/-- The direct read of bits 23:22 (10 R23): UNKNOWN where cp11 and cp10 differ. -/
def readCp11 (cfg : Config) (ctx : Context) (S : Cpacr) (u : ReadDraws) : BitVec 2 :=
  if !cfg.haveFPASIMD || nsFpRazwi cfg ctx then 0b00#2
  else if S.cp11 ≠ S.cp10 then u.cp11
  else S.cp11

/-- The direct read of the always-reserved bits, at their positions (10 R17). -/
def readRes0 (cfg : Config) (S : Cpacr) : Word := if cfg.res0Readback then S.res0 else 0#32

/-- `CPACR_Read(S, ctx)` (10 R28): the seven fields, most significant first, at the places of the layout table (R10, R11). -/
def cpacrRead (cfg : Config) (ctx : Context) (S : Cpacr) (u : ReadDraws) : Word :=
  BitVec.ofBool (readAsedis cfg ctx S u)
    ++ (readRes0 cfg S).extractLsb' CpacrField.res30.lsb 2
    ++ BitVec.ofBool (readTrcdis cfg ctx S u)
    ++ (readRes0 cfg S).extractLsb' CpacrField.res27.lsb 4
    ++ readCp11 cfg ctx S u
    ++ effCp10 cfg ctx S
    ++ (readRes0 cfg S).extractLsb' CpacrField.res19.lsb 20

/-- `CPACR_Write(S, ctx, v)` (10 R29; R16, R17, R20, R24, R27), each field from its place in the layout table (R11). -/
def cpacrWrite (cfg : Config) (ctx : Context) (S : Cpacr) (v : Word) : Cpacr where
  asedis := if cfg.haveFPASIMD && cfg.asedisRW && !nsAsedisRaowi cfg ctx then v.getLsbD CpacrField.asedis.lsb else S.asedis
  trcdis :=
    if cfg.haveTraceSysRegs && cfg.trcdisRW && !nsTrcdisRaowi cfg ctx then .known (v.getLsbD CpacrField.trcdis.lsb)
    else S.trcdis
  cp11 := if cfg.haveFPASIMD && !nsFpRazwi cfg ctx then v.extractLsb' CpacrField.cp11.lsb 2 else S.cp11
  cp10 := if cfg.haveFPASIMD && !nsFpRazwi cfg ctx then v.extractLsb' CpacrField.cp10.lsb 2 else S.cp10
  res0 := if cfg.res0Readback then v &&& alwaysReserved else S.res0

/-- The bits in which the model refuses a written 1 (10 R17): the always-reserved ones unless RES0_READBACK, and a named
field that is RES0 because its feature is absent. -/
def refusedOnes (cfg : Config) : Word :=
  (if cfg.res0Readback then 0#32 else alwaysReserved)
    ||| (if cfg.haveFPASIMD then 0#32 else CpacrField.asedis.mask ||| CpacrField.cp11.mask ||| CpacrField.cp10.mask)
    ||| (if cfg.haveTraceSysRegs then 0#32 else CpacrField.trcdis.mask)

/-- The stored state as the implementation can hold it when it is written under another name: the always-reserved bits have
storage only with RES0_READBACK (10 R12). -/
def cpacrHeld (cfg : Config) (S : Cpacr) : Cpacr :=
  { S with res0 := if cfg.res0Readback then S.res0 &&& alwaysReserved else 0#32 }

end Sys2Proof.Machine
end

