-- ==== Sys2Proof/Machine/Ops.lean ====
section
/-! DEFINITION. The named operations that instructions and inputs share: program memory and fetch, the program counter, the
storage of CPACR, the access check (40 R62), and taking an exception (60 R100 to R104). There is no return from an exception
to model: the spec names none (60 R108). -/

namespace Sys2Proof.Machine

/-- The canonical form: addresses strictly rising. An unlisted address reads as nothing, so no entry repeats one. -/
abbrev Memory.wf (m : Memory) : Prop := m.Pairwise fun x y => x.1 < y.1

/-- The byte at an address, if the program has one there. -/
def Memory.read (m : Memory) (a : Nat) : Option Byte :=
  match m with
  | [] => none
  | (b, v) :: rest => if b = a then some v else Memory.read rest a

/-- Stores a byte, keeping the canonical form. -/
def Memory.write (m : Memory) (a : Nat) (v : Byte) : Memory :=
  match m with
  | [] => [(a, v)]
  | (b, w) :: rest =>
    if a < b then (a, v) :: (b, w) :: rest
    else if b = a then (a, v) :: rest
    else (b, w) :: Memory.write rest a v

/-- Stores a run of bytes, the first at the lowest address. -/
def Memory.writeBytes (m : Memory) (a : Nat) : List Byte → Memory
  | [] => m
  | v :: rest => Memory.writeBytes (Memory.write m a v) (a + 1) rest

/-- The bytes from an address up, or the first address that has none. -/
def Memory.readBytes (m : Memory) (a : Nat) : Nat → Except Nat (List Byte)
  | 0 => .ok []
  | n + 1 =>
    match Memory.read m a with
    | none => .error a
    | some v =>
      match Memory.readBytes m (a + 1) n with
      | .ok vs => .ok (v :: vs)
      | .error b => .error b

/-- The four bytes at `pc`: both encodings are 32 bits wide (10 R36). -/
def State.fetchBytes (s : State) : Except Nat (List Byte) := Memory.readBytes s.memory s.pc 4

/-- `pc <- pc + 4` (40 R69). -/
def State.advancePc (s : State) : State := { s with pc := s.pc + 4 }

/-- Numbers the draws after `n` more have been made. -/
def State.countDraws (s : State) (n : Nat) : State := { s with draws := s.draws + n }

/-- The draws of one direct read, each with a number of its own (92 D7). -/
def State.readDraws (s : State) : ReadDraws where
  asedis := Config.drawBit s.draws
  trcdis := Config.drawBit (s.draws + 1)
  cp11 := Config.drawPair (s.draws + 2)

/-- How many numbers a direct read takes. -/
def readDrawCount : Nat := 3

/-- `S <- S'`. Under `until_sync` the storage from before the write stays visible to consultations until the next context
synchronisation event (70 R126). -/
def State.setCpacr (s : State) (S : Cpacr) : State :=
  { s with
    cpacr := S
    pending := if s.config.syncModel = .untilSync then s.pending ++ [s.cpacr] else s.pending }

/-- A context synchronisation event: consultations see the storage as it is (70 R126). -/
def State.synchronise (s : State) : State := { s with pending := [] }

/-- The part of the PE outside CPACR becomes what the environment supplies. -/
def State.setPe (s : State) (p : Pe) : State :=
  { s with regs := p.regs, pc := p.pc, flags := p.flags, ctx := p.ctx }

/-- `EL3_TCPAC` (40 R62). -/
def el3Tcpac (cfg : Config) (ctx : Context) : Bool :=
  cfg.haveEL3 && cfg.featAA64EL3 && !ctx.el3UsingAArch32 && ctx.cptrEl3Tcpac

/-- `H64_T1` (40 R62). -/
def h64T1 (cfg : Config) (ctx : Context) : Bool :=
  ctx.el2Enabled && cfg.featAA64EL2 && !ctx.el2UsingAArch32 && ctx.hstrEl2T1

/-- `H32_T1` (40 R62). -/
def h32T1 (cfg : Config) (ctx : Context) : Bool :=
  ctx.el2Enabled && cfg.featAA32EL2 && ctx.el2UsingAArch32 && ctx.hstrT1

/-- `H64_TCPAC` (40 R62). -/
def h64Tcpac (cfg : Config) (ctx : Context) : Bool :=
  ctx.el2Enabled && cfg.featAA64EL2 && !ctx.el2UsingAArch32 && ctx.cptrEl2Tcpac

/-- `H32_TCPAC` (40 R62). -/
def h32Tcpac (cfg : Config) (ctx : Context) : Bool :=
  ctx.el2Enabled && cfg.featAA32EL2 && ctx.el2UsingAArch32 && ctx.hcptrTcpac

/-- The EL1 block of the access pseudocode: rows 3 to 10 of 40 R62. -/
def accessCheckEL1 (cfg : Config) (ctx : Context) : AccessResult :=
  if el3Tcpac cfg ctx && ctx.el3SDDUndefPriority then .take .undefined
  else if h64T1 cfg ctx then .take (.sysAccessTrap .el2)
  else if h32T1 cfg ctx then .take .hypTrap
  else if h64Tcpac cfg ctx then .take (.sysAccessTrap .el2)
  else if h32Tcpac cfg ctx then .take .hypTrap
  else if el3Tcpac cfg ctx then
    if ctx.el3SDDUndef then .take .undefined else .take (.sysAccessTrap .el3)
  else .allow

/-- The EL2 block of the access pseudocode: rows 11 to 14 of 40 R62. -/
def accessCheckEL2 (cfg : Config) (ctx : Context) : AccessResult :=
  if el3Tcpac cfg ctx && ctx.el3SDDUndefPriority then .take .undefined
  else if el3Tcpac cfg ctx then
    if ctx.el3SDDUndef then .take .undefined else .take (.sysAccessTrap .el3)
  else .allow

/-- `Check(ctx)` (40 R62), the chain that R60 and R61 share. -/
def accessCheck (cfg : Config) (ctx : Context) : AccessResult :=
  if !cfg.featAA32EL1 then .take .undefined
  else
    match ctx.el with
    | .el0 => .take .undefined
    | .el1 => accessCheckEL1 cfg ctx
    | .el2 => accessCheckEL2 cfg ctx
    | .el3 => .allow

/-- The argument `0x03` of every trap call (40 R67, 60 R105). -/
def trapValue : Nat := 0x03

/-- Taking an exception (60 R100 to R104): a terminal fault with the kind, the target and value of a trap, and the
instruction that caused it. The spec describes no entry: no saved state, no vector, no return (R104, R108). -/
def takeException (e : ExceptionKind) (c : Cause) : Host.Outcome State Fault Refusal :=
  match e with
  | .undefined => .fault (.undefined c)
  | .hypTrap => .fault (.hypTrap trapValue c)
  | .sysAccessTrap target => .fault (.sysAccessTrap target trapValue c)

/-- The continuation with the index of `R[t]`, or the refusal of 40 R68. -/
def withRegister (set : InstrSet) (rt : BitVec 4) (k : Fin 15 → Host.Outcome State Fault Refusal) :
    Host.Outcome State Fault Refusal :=
  match regIndex set rt with
  | some t => k t
  | none => .refused (.rtNotAdmitted set rt)

/-- An instruction under a condition: a failed condition is a no-op that moves to the next instruction (40 R63, R69). -/
def underCondition (c : Cond) (s : State) (body : Host.Outcome State Fault Refusal) : Host.Outcome State Fault Refusal :=
  if condPasses c s.flags then body else .next s.advancePc

/-- An access that `Check` allows, or the exception it takes (40 R62). -/
def checked (i : Instr) (s : State) (body : Host.Outcome State Fault Refusal) : Host.Outcome State Fault Refusal :=
  match accessCheck s.config s.ctx with
  | .allow => body
  | .take e => takeException e (.instr i)

/-- `R[t] <- CPACR_Read(S, ctx)`, then the next instruction (40 R60, R69). -/
def State.readCpacrInto (s : State) (t : Fin 15) : State :=
  ((s.writeReg t (cpacrRead s.config s.ctx s.cpacr s.readDraws)).countDraws readDrawCount).advancePc

/-- `S <- CPACR_Write(S, ctx, v)`, then the next instruction (40 R61, R69). -/
def State.writeCpacrFrom (s : State) (v : Word) : State :=
  (s.setCpacr (cpacrWrite s.config s.ctx s.cpacr v)).advancePc

/-- The write of 40 R61, or the refusal of a 1 in a RES0 bit (10 R17). -/
def writeCpacr (s : State) (v : Word) : Host.Outcome State Fault Refusal :=
  if v &&& refusedOnes s.config = 0#32 then .next (s.writeCpacrFrom v) else .refused (.writesRes0 v)

/-- MRC, whatever its encoding (40 R60, R63, R68). -/
def moveFromCpacr (i : Instr) (c : Cond) (s : State) : Host.Outcome State Fault Refusal :=
  withRegister i.set i.rt fun t => underCondition c s (checked i s (.next (s.readCpacrInto t)))

/-- MCR, whatever its encoding (40 R61, R63, R68). -/
def moveToCpacr (i : Instr) (c : Cond) (s : State) : Host.Outcome State Fault Refusal :=
  withRegister i.set i.rt fun t => underCondition c s (checked i s (writeCpacr s (s.readReg t)))

end Sys2Proof.Machine
end

