-- ==== Sys2Proof/Machine/SysReg.lean ====
section
/-! DEFINITION. The meanings of the four encodings (40_sysreg_access R60, R61): MRC reads CPACR into `R[t]`, MCR writes `R[t]`
to CPACR, each under its condition and after the access check. -/

namespace Sys2Proof.Machine

/-- MRC, A32 (40 R60). -/
def execMrcA32 (cond : Cond) (rt : BitVec 4) (s : State) : Host.Outcome State Fault Refusal :=
  moveFromCpacr (.mrcA32 cond rt) cond s

/-- MCR, A32 (40 R61). -/
def execMcrA32 (cond : Cond) (rt : BitVec 4) (s : State) : Host.Outcome State Fault Refusal :=
  moveToCpacr (.mcrA32 cond rt) cond s

/-- MRC, T32 (40 R60), under the condition of the enclosing IT block (30 R54). -/
def execMrcT32 (rt : BitVec 4) (s : State) : Host.Outcome State Fault Refusal :=
  moveFromCpacr (.mrcT32 rt) (itCondition s.ctx) s

/-- MCR, T32 (40 R61), under the condition of the enclosing IT block (30 R54). -/
def execMcrT32 (rt : BitVec 4) (s : State) : Host.Outcome State Fault Refusal :=
  moveToCpacr (.mcrT32 rt) (itCondition s.ctx) s

end Sys2Proof.Machine
end

