-- ==== Sys2Proof/Machine/Gate.lean ====
section
/-! DEFINITION. What CPACR does to the instructions of the gated classes (41_access_control_effects R80 to R94), and which
storage a consultation sees (70 R126). -/

namespace Sys2Proof.Machine

/-- `PL(PSTATE.EL)` for an AArch32 instruction (60 R110). The EL0 and Non-secure EL1 lines are PRESUMED (log 28). -/
def privilegeLevel : ExceptionLevel → PrivilegeLevel
  | .el0 => .pl0
  | .el1 => .pl1
  | .el2 => .pl2
  | .el3 => .pl1

/-- `IsFPASIMDAccess(instr)` (41 R82). -/
def isFPASIMDAccess : GatedInstr → Bool
  | .floatingPoint => true
  | .advancedSimdOnly => true
  | .fpRegisterAccess _ => true
  | .fpSystemRegisterAccess _ => true
  | .traceSystemRegisterAccess => false

/-- `IsASIMDOnly(instr)` (41 R85). -/
def isASIMDOnly : GatedInstr → Bool
  | .advancedSimdOnly => true
  | .floatingPoint => false
  | .fpRegisterAccess _ => false
  | .fpSystemRegisterAccess _ => false
  | .traceSystemRegisterAccess => false

/-- `IsTraceSysRegAccess(instr)` (41 R86). -/
def isTraceSysRegAccess : GatedInstr → Bool
  | .traceSystemRegisterAccess => true
  | .floatingPoint => false
  | .advancedSimdOnly => false
  | .fpRegisterAccess _ => false
  | .fpSystemRegisterAccess _ => false

/-- `CP10_Undefined(0b00, PL)`: at PL0 and PL1 (41 R81). -/
def deniedAtPl0AndPl1 : PrivilegeLevel → Bool
  | .pl0 => true
  | .pl1 => true
  | .pl2 => false

/-- `CP10_Undefined(0b01, PL)`: at PL0 only (41 R81). -/
def deniedAtPl0 : PrivilegeLevel → Bool
  | .pl0 => true
  | .pl1 => false
  | .pl2 => false

/-- `CP10_Undefined(0b10, PL)` by the implementation's choice (41 R83). Under `pl1undef` the PL0 outcome is the draw. -/
def cp10ReservedUndefined (choice : Cp10Reserved) (pl : PrivilegeLevel) (draw : Bool) : Bool :=
  match choice with
  | .as00 => deniedAtPl0AndPl1 pl
  | .as01 => deniedAtPl0 pl
  | .as11 => false
  | .pl1undef =>
    match pl with
    | .pl0 => draw
    | .pl1 => true
    | .pl2 => false

/-- `CP10_Undefined(e, PL)` (41 R81, R83). -/
def cp10Undefined (choice : Cp10Reserved) (e : BitVec 2) (pl : PrivilegeLevel) (draw : Bool) : Bool :=
  if pl = .pl2 then false
  else if e = 0b00#2 then deniedAtPl0AndPl1 pl
  else if e = 0b01#2 then deniedAtPl0 pl
  else if e = 0b11#2 then false
  else cp10ReservedUndefined choice pl draw

/-- `ASEDIS_Undefined(a, PL, instr)` (41 R85). -/
def asedisUndefined (a : Bool) (pl : PrivilegeLevel) (g : GatedInstr) : Bool := pl != .pl2 && a && isASIMDOnly g

/-- `TRCDIS_Undefined(d, PL, instr)` (41 R86). -/
def trcdisUndefined (d : Bool) (pl : PrivilegeLevel) (g : GatedInstr) : Bool := pl != .pl2 && d && isTraceSysRegAccess g

/-- The free values one gated instruction may draw: which storage each of the three consultations sees (70 R126), the value
of an `unknown` TRCDIS (10 R19), and the PL0 outcome of `pl1undef` (41 R83). -/
structure GateDraws where
  pickCp10 : Nat
  pickAsedis : Nat
  pickTrcdis : Nat
  trcdis : Bool
  pl0 : Bool
  deriving DecidableEq, Repr

/-- The draws of one gated instruction, each with a number of its own. -/
def State.gateDraws (s : State) : GateDraws where
  pickCp10 := Config.drawIndex s.draws
  pickAsedis := Config.drawIndex (s.draws + 1)
  pickTrcdis := Config.drawIndex (s.draws + 2)
  trcdis := Config.drawBit (s.draws + 3)
  pl0 := Config.drawBit (s.draws + 4)

/-- How many numbers a gated instruction takes. -/
def gateDrawCount : Nat := 5

/-- The storage a consultation sees (70 R126): under `immediate` the storage as it is; under `until_sync` that one or any
from before a write since the last context synchronisation event, `pick` choosing. -/
def State.seenCpacr (s : State) (pick : Nat) : Cpacr :=
  match s.config.syncModel with
  | .immediate => s.cpacr
  | .untilSync => s.pending.getD (pick % (s.pending.length + 1)) s.cpacr

/-- `CPACR_MakesUndefined` (41 R91), each of the three controls consulting a storage of its own. -/
def State.cpacrMakesUndefined (s : State) (g : GatedInstr) (u : GateDraws) : Bool :=
  (isFPASIMDAccess g
      && cp10Undefined s.config.cp10Reserved (effCp10 s.config s.ctx (s.seenCpacr u.pickCp10)) (privilegeLevel s.ctx.el) u.pl0)
    || (isASIMDOnly g
      && asedisUndefined (effAsedis s.config s.ctx (s.seenCpacr u.pickAsedis)) (privilegeLevel s.ctx.el) g)
    || (isTraceSysRegAccess g
      && trcdisUndefined (effTrcdis s.config s.ctx (s.seenCpacr u.pickTrcdis) u.trcdis) (privilegeLevel s.ctx.el) g)

/-- An EL0 access to a trace register under FEAT_ETMv4 or FEAT_ETE is UNDEFINED, whatever TRCDIS holds (41 R88). -/
def el0TraceUndefined (cfg : Config) (ctx : Context) (g : GatedInstr) : Bool :=
  (cfg.featETMv4 || cfg.featETE) && ctx.el = .el0 && isTraceSysRegAccess g

/-- The spec gives a gating rule: not for an EL0 instruction under an EL1 that is using AArch64 (41 R94), nor, below PL2, with
FEAT_AA32EL1 absent (00 R2). At PL2 CPACR has no effect (R80). -/
def gatingSpecified (cfg : Config) (ctx : Context) : Bool :=
  privilegeLevel ctx.el = .pl2 || (cfg.featAA32EL1 && (ctx.el != .el0 || ctx.el1UsingAArch32))

/-- What CPACR does to a gated instruction. -/
inductive GateResult where
  | undefined
  | permitted
  | notSpecified
  deriving DecidableEq, Repr

/-- The test applied to a gated instruction about to execute (41 R88, R91, R94). -/
def State.gate (s : State) (g : GatedInstr) : GateResult :=
  if el0TraceUndefined s.config s.ctx g then .undefined
  else if !gatingSpecified s.config s.ctx then .notSpecified
  else if s.cpacrMakesUndefined g s.gateDraws then .undefined
  else .permitted

/-- A gated instruction (41 R91): `Undefined` on CPACR's account, or whatever the other controls and the instruction itself,
none of them in the spec, leave (log 25). CPACR's storage is not theirs to write (60 R112). -/
def execGated (g : GatedInstr) (after : Pe) (s : State) : Host.Outcome State Fault Refusal :=
  match s.gate g with
  | .undefined => takeException .undefined (.gated g)
  | .permitted => .next ((s.setPe after).countDraws gateDrawCount)
  | .notSpecified => .refused (.gatingNotSpecified g)

end Sys2Proof.Machine
end

