-- ==== Sys2Proof/Machine/Inputs.lean ====
section
/-! DEFINITION. What each entry of the environment's schedule does to the machine (log 2), but for `proceed`, which runs an
instruction (Step.lean). -/

namespace Sys2Proof.Machine

/-- `WarmReset` (70 R121): CPACR's storage takes the values of 10 R38; the rest of the PE is what the environment supplies. A
consultation after it sees the reset storage, as 41 R92 needs. DEDUCED (log 23). -/
def State.warmReset (s : State) (p : Pe) : State := ({ s with cpacr := Cpacr.reset, pending := [] }).setPe p

/-- The next per-step inputs (10 R33 to R35). -/
def inputSetContext (ctx : Context) (s : State) : Host.Outcome State Fault Refusal := .next { s with ctx := ctx }

/-- A context synchronisation event (70 R126). -/
def inputContextSync (s : State) : Host.Outcome State Fault Refusal := .next s.synchronise

/-- A Warm reset (70 R120, R121). -/
def inputWarmReset (p : Pe) (s : State) : Host.Outcome State Fault Refusal := .next (s.warmReset p)

/-- A trace register access through the external debug interface is never trapped (41 R89). The trace registers are not in
the spec, so nothing of this state changes. -/
def inputExternalDebugTraceAccess (s : State) : Host.Outcome State Fault Refusal := .next s

/-- A write of the same storage under the name CPACR_EL1 (00 R5, 60 R112), by accessors out of scope: any value the storage
can hold (log 27). -/
def inputCpacrEl1Write (S : Cpacr) (s : State) : Host.Outcome State Fault Refusal := .next (s.setCpacr (cpacrHeld s.config S))

/-- A byte of the program handed to the machine (70 R123). -/
def inputStoreByte (a : Nat) (v : Byte) (s : State) : Host.Outcome State Fault Refusal :=
  .next { s with memory := Memory.write s.memory a v }

end Sys2Proof.Machine
end

