-- ==== Sys2Proof/Machine/Step.lean ====
section
/-! DEFINITION. One step: the next entry of the environment's schedule, or, where it says so or is empty, the instruction at
`pc`. -/

namespace Sys2Proof.Machine

/-- Fetch, decode, execute. -/
def runInstruction (s : State) : Host.Outcome State Fault Refusal :=
  match s.fetchBytes with
  | .error a => .fault (.noProgramByte a)
  | .ok bytes =>
    match decode s.ctx.iset bytes with
    | .ok (i, _) => exec i s
    | .error r => .refused (.notDecoded r)

/-- What one entry of the schedule does. -/
def runInput (e : Input) (s : State) : Host.Outcome State Fault Refusal :=
  match e with
  | .proceed => runInstruction s
  | .setContext ctx => inputSetContext ctx s
  | .contextSync => inputContextSync s
  | .warmReset p => inputWarmReset p s
  | .gated g after => execGated g after s
  | .externalDebugTraceAccess => inputExternalDebugTraceAccess s
  | .cpacrEl1Write S => inputCpacrEl1Write S s
  | .storeByte a v => inputStoreByte a v s

/-- One step of the machine. -/
def step (s : State) : Host.Outcome State Fault Refusal :=
  match s.inputs with
  | [] => runInstruction s
  | e :: rest => runInput e { s with inputs := rest }

/-- The state with one instruction of the opcode table, its bits numbered as the table numbers them, where the next step
fetches: its bytes at `pc`, the instruction set it is read in, and, where the environment has a schedule, an entry that lets
the PE proceed first (log 10). -/
def State.withFetchWord (s : State) (nbits w : Nat) : State :=
  let v := tableWord nbits w
  { s with
    memory := Memory.writeBytes s.memory s.pc (bytesOfWord (tableSet v) v)
    ctx := { s.ctx with iset := tableSet v }
    inputs := match s.inputs with
      | [] => []
      | e :: rest => .proceed :: e :: rest }

end Sys2Proof.Machine
end

