-- ==== Sys2Proof/Safety.lean ====
section
/-! DEFINITION. What claims are stated in: the spec's conditions written out from its inputs (not through the functions that
the step calls), the invariant of the machine, and what an instruction leaves alone. -/

namespace Sys2Proof.Machine

/-- Non-secure state with EL3 implemented and using AArch32, where NSACR overrides fields of CPACR (10 R13). -/
abbrev NonSecureView (cfg : Config) (ctx : Context) : Prop :=
  cfg.haveEL3 = true ∧ ctx.el3UsingAArch32 = true ∧ ctx.isSecure = false

/-- No field is overridden by NSACR (10 R13). -/
abbrev NoOverride (cfg : Config) (ctx : Context) : Prop :=
  NonSecureView cfg ctx → ctx.nsacrCp10 = true ∧ ctx.nsacrNsasedis = false ∧ ctx.nsacrNstrcdis = false

/-- The EL3 control of accesses: EL3 using AArch64, with `CPTR_EL3.TCPAC == '1'` (40 R62). -/
abbrev El3ControlsAccess (cfg : Config) (ctx : Context) : Prop :=
  cfg.haveEL3 = true ∧ cfg.featAA64EL3 = true ∧ ctx.el3UsingAArch32 = false ∧ ctx.cptrEl3Tcpac = true

/-- EL2 using AArch64 traps EL1's accesses (60 R102). -/
abbrev El2AArch64TrapsAccess (cfg : Config) (ctx : Context) : Prop :=
  ctx.el2Enabled = true ∧ cfg.featAA64EL2 = true ∧ ctx.el2UsingAArch32 = false
    ∧ (ctx.hstrEl2T1 = true ∨ ctx.cptrEl2Tcpac = true)

/-- EL2 using AArch32 traps EL1's accesses (60 R101). -/
abbrev El2AArch32TrapsAccess (cfg : Config) (ctx : Context) : Prop :=
  ctx.el2Enabled = true ∧ cfg.featAA32EL2 = true ∧ ctx.el2UsingAArch32 = true
    ∧ (ctx.hstrT1 = true ∨ ctx.hcptrTcpac = true)

/-- The rows of 40 R62 whose result is `Allow`: 10, 14 and 15. -/
abbrev AccessAllowed (cfg : Config) (ctx : Context) : Prop :=
  cfg.featAA32EL1 = true
    ∧ (ctx.el = .el3
      ∨ (ctx.el = .el2 ∧ ¬ El3ControlsAccess cfg ctx)
      ∨ (ctx.el = .el1 ∧ ¬ El3ControlsAccess cfg ctx ∧ ¬ El2AArch64TrapsAccess cfg ctx ∧ ¬ El2AArch32TrapsAccess cfg ctx))

/-- The condition under which an instruction executes: its field, or, in T32, the enclosing IT block's (30 R54). -/
def instrCondition (i : Instr) (ctx : Context) : Cond := i.cond?.getD (itCondition ctx)

/-- No bit that is RES0 on this implementation is written with a 1 (10 R17). -/
abbrev WritesNoRes0 (cfg : Config) (v : Word) : Prop :=
  (cfg.res0Readback = false → v &&& 0x6F0FFFFF#32 = 0#32)
    ∧ (cfg.haveFPASIMD = false → v &&& 0x80F00000#32 = 0#32)
    ∧ (cfg.haveTraceSysRegs = false → v &&& 0x10000000#32 = 0#32)

/-- The PE is at PL0 or PL1, and the spec gives a gating rule there (41 R80, R94; 00 R2). -/
abbrev GatedPrivilege (cfg : Config) (ctx : Context) : Prop :=
  cfg.featAA32EL1 = true ∧ ctx.el ≠ .el2 ∧ (ctx.el = .el0 → ctx.el1UsingAArch32 = true)

/-- ASEDIS behaves as 0 where the feature is present: not overridden, and not a RW bit that holds 1 (10 R15). -/
abbrev AsedisBehavesAs0 (cfg : Config) (ctx : Context) (S : Cpacr) : Prop :=
  ¬ (NonSecureView cfg ctx ∧ ctx.nsacrNsasedis = true) ∧ (cfg.asedisRW = false ∨ S.asedis = false)

/-- A stored cp10 that is not overridden permits the class of 41 R82 at the level (41 R81; for 0b10, R83 where the choice
settles it). -/
abbrev Cp10Permits (cfg : Config) (ctx : Context) (S : Cpacr) : Prop :=
  S.cp10 = 0b11#2
    ∨ (S.cp10 = 0b01#2 ∧ ctx.el ≠ .el0)
    ∨ (S.cp10 = 0b10#2 ∧ (cfg.cp10Reserved = .as11 ∨ (cfg.cp10Reserved = .as01 ∧ ctx.el ≠ .el0)))

/-- A storage that a consultation may see: the current one or, under `until_sync`, one from before a write since the last context
synchronisation event (70 R126; log 22). -/
abbrev Visible (s : State) (S : Cpacr) : Prop := S = s.cpacr ∨ (s.config.syncModel = .untilSync ∧ S ∈ s.pending)

/-- At PL0 or PL1, cp10 of a storage makes the class of 41 R82 UNDEFINED (10 R26; 41 R81, R83), `pl0` being the free outcome at
PL0 under `pl1undef`. -/
abbrev Cp10Denies (cfg : Config) (ctx : Context) (S : Cpacr) (pl0 : Bool) : Prop :=
  cfg.haveFPASIMD = false
    ∨ (NonSecureView cfg ctx ∧ ctx.nsacrCp10 = false)
    ∨ S.cp10 = 0b00#2
    ∨ (S.cp10 = 0b01#2 ∧ ctx.el = .el0)
    ∨ (S.cp10 = 0b10#2
      ∧ (cfg.cp10Reserved = .as00 ∨ (cfg.cp10Reserved = .as01 ∧ ctx.el = .el0)
        ∨ (cfg.cp10Reserved = .pl1undef ∧ (ctx.el ≠ .el0 ∨ pl0 = true))))

/-- ASEDIS of a storage behaves as 1 (10 R15). -/
abbrev AsedisBehavesAs1 (cfg : Config) (ctx : Context) (S : Cpacr) : Prop :=
  cfg.haveFPASIMD = true
    ∧ ((NonSecureView cfg ctx ∧ ctx.nsacrNsasedis = true) ∨ (cfg.asedisRW = true ∧ S.asedis = true))

/-- TRCDIS of a storage behaves as 1 (10 R19), `draw` being its value while it is `unknown`. -/
abbrev TrcdisBehavesAs1 (cfg : Config) (ctx : Context) (S : Cpacr) (draw : Bool) : Prop :=
  cfg.haveTraceSysRegs = true
    ∧ ((NonSecureView cfg ctx ∧ ctx.nsacrNstrcdis = true)
      ∨ (cfg.trcdisRW = true ∧ (S.trcdis = .known true ∨ (S.trcdis = .unknown ∧ draw = true))))

/-- At PL0 or PL1 one of the three controls makes a gated instruction UNDEFINED, each read in a storage of its own: cp10 the class
of 41 R82 in `Sc`, ASEDIS an Advanced SIMD only encoding (R85) in `Sa`, TRCDIS a trace access (R86) in `St`. -/
abbrev Denies (cfg : Config) (ctx : Context) (Sc Sa St : Cpacr) (pl0 trcdis : Bool) (g : GatedInstr) : Prop :=
  (g ≠ .traceSystemRegisterAccess ∧ Cp10Denies cfg ctx Sc pl0)
    ∨ (g = .advancedSimdOnly ∧ AsedisBehavesAs1 cfg ctx Sa)
    ∨ (g = .traceSystemRegisterAccess ∧ TrcdisBehavesAs1 cfg ctx St trcdis)

/-- Everything but the general registers, `pc`, CPACR's storage and the count of draws is as it was. -/
def SamePlatform (s t : State) : Prop :=
  t.config = s.config ∧ t.flags = s.flags ∧ t.ctx = s.ctx ∧ t.inputs = s.inputs
    ∧ ∀ a, Memory.read t.memory a = Memory.read s.memory a

/-- Every general register but `t` is as it was. -/
def SameRegsBut (t : Fin 15) (s s' : State) : Prop := ∀ r, r ≠ t → s'.readReg r = s.readReg r

/-- The always-reserved bits have storage only at their positions, and only with RES0_READBACK (10 R12, R17). -/
abbrev StorageHeld (cfg : Config) (S : Cpacr) : Prop :=
  S.res0 &&& ~~~0x6F0FFFFF#32 = 0#32 ∧ (cfg.res0Readback = false → S.res0 = 0#32)

/-- The invariant: the program's memory keeps its canonical form, every storage a consultation may see is one the
implementation can hold, and under `immediate` no earlier storage is visible (70 R126). -/
abbrev Inv (s : State) : Prop :=
  Memory.wf s.memory
    ∧ StorageHeld s.config s.cpacr
    ∧ (∀ S ∈ s.pending, StorageHeld s.config S)
    ∧ (s.config.syncModel = .immediate → s.pending = [])

/-- No storage a consultation may see enables floating-point or Advanced SIMD at any Privilege level (41 R92). -/
abbrev Cp10Clear (s : State) : Prop := s.cpacr.cp10 = 0b00#2 ∧ ∀ S ∈ s.pending, S.cp10 = 0b00#2

/-- The step runs the instruction at `pc`: the schedule is empty or its next entry says so. The state that executes it. -/
def RunsInstruction (s s0 : State) : Prop :=
  (s.inputs = [] ∧ s0 = s) ∨ ∃ rest, s.inputs = .proceed :: rest ∧ s0 = { s with inputs := rest }

end Sys2Proof.Machine
end

