-- ==== Sys2Proof/Certificates/Slice0/Obligations.lean ====
section
/-! DEFINITION. The statements for the provers, in the order of the spec: encoding, reset, the step, the access check, the four
instructions, the views of the fields, the gated instructions, the window of a write, and the environment's inputs. A number
such as "40 R62" is a rule of that file of spec/. "Model's choice" marks what rests on a log entry and on no rule. -/

open Sys2Proof Sys2Proof.Machine

/-! ## Encoding -/

/-- 30 R50, R54: every admitted instruction, at every value of its operands, is read back from its bytes, and the bytes after
it are left. -/
def Obligations.DecodeOfEncodeIsTheInstruction : Prop :=
  ∀ (i : Instr) (rest : List Byte), i.wf = true → decode i.set (encode i ++ rest) = .ok (i, rest)

/-- 30 R50, R54, 40 R68: the words with a meaning in an instruction set are exactly the encodings of its admitted instructions,
and each has one meaning. -/
def Obligations.DecodedWordsAreExactlyTheEncodings : Prop :=
  ∀ (set : InstrSet) (w : Word) (i : Instr),
    decodeWord set w = .ok i ↔ (i.set = set ∧ i.wf = true ∧ encodeWord i = w)

/-- 30 R54's table of masks and matches, with the admitted registers of 40 R68. -/
def Obligations.DecoderAcceptsByMaskAndMatch : Prop :=
  ∀ w : Word,
    ((∃ c rt, decodeWord .a32 w = .ok (.mrcA32 c rt)) ↔
      (w &&& 0x0FFF0FFF#32 = 0x0E110F50#32 ∧ w.extractLsb' 28 4 ≠ 15#4 ∧ w.extractLsb' 12 4 ≠ 15#4))
    ∧ ((∃ c rt, decodeWord .a32 w = .ok (.mcrA32 c rt)) ↔
      (w &&& 0x0FFF0FFF#32 = 0x0E010F50#32 ∧ w.extractLsb' 28 4 ≠ 15#4 ∧ w.extractLsb' 12 4 ≠ 15#4))
    ∧ ((∃ rt, decodeWord .t32 w = .ok (.mrcT32 rt)) ↔
      (w &&& 0xFFFF0FFF#32 = 0xEE110F50#32 ∧ w.extractLsb' 12 4 ≠ 15#4 ∧ w.extractLsb' 12 4 ≠ 13#4))
    ∧ ((∃ rt, decodeWord .t32 w = .ok (.mcrT32 rt)) ↔
      (w &&& 0xFFFF0FFF#32 = 0xEE010F50#32 ∧ w.extractLsb' 12 4 ≠ 15#4 ∧ w.extractLsb' 12 4 ≠ 13#4))

/-- 30 R57: a word whose selector fields are not CPACR's tuple (R50) is no instruction, in either set. -/
def Obligations.WordsOfOtherRegistersAreRefused : Prop :=
  ∀ (set : InstrSet) (w : Word),
    ¬ (w.extractLsb' 8 4 = 0b1111#4 ∧ w.extractLsb' 21 3 = 0b000#3 ∧ w.extractLsb' 16 4 = 0b0001#4
      ∧ w.extractLsb' 0 4 = 0b0000#4 ∧ w.extractLsb' 5 3 = 0b010#3) →
    ∃ r, decodeWord set w = .error r

/-- 95 section 2.6, a sanity statement: bytes written out from the spec's words, at least one for each constructor. That they are
the bytes of those words is the byte order of 20_memory section 2, the model's choice (log 9). -/
def Obligations.WrittenOutBytesDecode : Prop :=
  decode .a32 [0x50#8, 0x1F#8, 0x11#8, 0xEE#8] = .ok (.mrcA32 .al 1#4, [])
    ∧ decode .a32 [0x50#8, 0x0F#8, 0x11#8, 0x1E#8] = .ok (.mrcA32 .ne 0#4, [])
    ∧ decode .a32 [0x50#8, 0x0F#8, 0x01#8, 0x0E#8] = .ok (.mcrA32 .eq 0#4, [])
    ∧ decode .t32 [0x11#8, 0xEE#8, 0x50#8, 0x7F#8] = .ok (.mrcT32 7#4, [])
    ∧ decode .t32 [0x01#8, 0xEE#8, 0x50#8, 0xCF#8] = .ok (.mcrT32 12#4, [])

/-! ## Reset -/

/-- 10 R38: what a Warm reset leaves in each field of the storage, in the state after reset. That the reserved bits' storage is 0
is a choice (92 D3; log 16). -/
def Obligations.ResetLeavesTheStatedStorage : Prop :=
  State.reset.cpacr.asedis = false ∧ State.reset.cpacr.trcdis = .unknown ∧ State.reset.cpacr.cp11 = 0b00#2
    ∧ State.reset.cpacr.cp10 = 0b00#2 ∧ State.reset.cpacr.res0 = 0#32

/-- 10 R38: a Warm reset leaves every field of the storage at its value after reset, whatever it held. That the reserved bits'
storage becomes 0 is a choice (92 D3; log 16). -/
def Obligations.WarmResetStepResetsTheStorage : Prop :=
  ∀ (s : State) (p : Pe) (rest : List Input), s.inputs = .warmReset p :: rest →
    ∃ s', step s = .next s'
      ∧ s'.cpacr.asedis = false ∧ s'.cpacr.trcdis = .unknown ∧ s'.cpacr.cp11 = 0b00#2 ∧ s'.cpacr.cp10 = 0b00#2
      ∧ s'.cpacr.res0 = 0#32

/-- 70 R121: a Warm reset changes no parameter, and the rest of the PE after it is any `p` at all. That the program, the
schedule and the count of draws stay is the model's choice (log 31), and that no earlier storage stays visible is deduced
(log 23). -/
def Obligations.WarmResetLeavesTheRestToTheEnvironment : Prop :=
  ∀ (s : State) (p : Pe) (rest : List Input), s.inputs = .warmReset p :: rest →
    ∃ s', step s = .next s' ∧ s'.config = s.config
      ∧ s'.regs = p.regs ∧ s'.pc = p.pc ∧ s'.flags = p.flags ∧ s'.ctx = p.ctx
      ∧ (∀ k, s'.seenCpacr k = s'.cpacr) ∧ s'.memory = s.memory ∧ s'.inputs = rest ∧ s'.draws = s.draws

/-! ## The step -/

/-- The state after reset meets the invariant (10 R38; model's choice: memory is empty, log 8). -/
def Obligations.ResetStateMeetsTheInvariant : Prop := Inv State.reset

/-- Every step from a state that meets the invariant gives one that meets it: the memory's canonical form, the reserved bits'
storage (10 R12, R17), and no earlier storage visible under `immediate` (70 R126). -/
def Obligations.StepKeepsTheInvariant : Prop :=
  ∀ s s' : State, Inv s → step s = .next s' → Inv s'

/-- 00 section 5: no step changes the implementation's parameters; and no step changes the program but a storeByte input. That a
gated instruction and a Warm reset leave the program is the model's choice (log 25, 31). -/
def Obligations.StepKeepsParametersAndProgram : Prop :=
  ∀ s s' : State, step s = .next s' →
    s'.config = s.config ∧ ((∃ a v rest, s.inputs = .storeByte a v :: rest) ∨ s'.memory = s.memory)

/-- 60 R112, 10 R12, 40 R60 to R62: the storage of CPACR changes only by a Warm reset, by a write under the name CPACR_EL1, or
by an MCR whose condition passes and whose access is allowed. -/
def Obligations.StorageChangesOnlyByTheNamedEvents : Prop :=
  ∀ s s' : State, step s = .next s' → s'.cpacr ≠ s.cpacr →
    (∃ p rest, s.inputs = .warmReset p :: rest)
      ∨ (∃ S rest, s.inputs = .cpacrEl1Write S :: rest)
      ∨ (∃ s0 bytes i rest, RunsInstruction s s0 ∧ s0.fetchBytes = .ok bytes
        ∧ decode s0.ctx.iset bytes = .ok (i, rest) ∧ i.direction = .write
        ∧ condPasses (instrCondition i s.ctx) s.flags = true ∧ AccessAllowed s.config s.ctx)

/-- A step runs the decoded instruction: where the four bytes at `pc` decode to `i` and the schedule is empty or says proceed,
the step is `exec i` at the state, its schedule entry taken. -/
def Obligations.StepRunsTheDecodedInstruction : Prop :=
  ∀ (s s0 : State) (b0 b1 b2 b3 : Byte) (i : Instr) (tail : List Byte), RunsInstruction s s0 →
    Memory.read s.memory s.pc = some b0 → Memory.read s.memory (s.pc + 1) = some b1 →
    Memory.read s.memory (s.pc + 2) = some b2 → Memory.read s.memory (s.pc + 3) = some b3 →
    decode s.ctx.iset [b0, b1, b2, b3] = .ok (i, tail) → step s = exec i s0

/-- 30 R57 and the model's choice (log 8): a step stops, by name, where the bytes at `pc` decode to nothing, and where one of
the four is missing, the first that is. -/
def Obligations.StepStopsWhereNothingDecodes : Prop :=
  ∀ (s s0 : State), RunsInstruction s s0 →
    (∀ b0 b1 b2 b3 r, Memory.read s.memory s.pc = some b0 → Memory.read s.memory (s.pc + 1) = some b1 →
      Memory.read s.memory (s.pc + 2) = some b2 → Memory.read s.memory (s.pc + 3) = some b3 →
      decode s.ctx.iset [b0, b1, b2, b3] = .error r → step s = .refused (.notDecoded r))
    ∧ (∀ k, k < 4 → (∀ j, j < k → Memory.read s.memory (s.pc + j) ≠ none) → Memory.read s.memory (s.pc + k) = none →
      step s = .fault (.noProgramByte (s.pc + k)))

/-- 40 R69, R71, 20 R40, 10 R37: an instruction that completes is followed by the next one in program order, and changes no
flag, no input, no parameter and no byte of memory. MRC writes no storage and MCR writes no register (40 R60, R61). -/
def Obligations.CompletedInstructionsMoveOnAndLeaveTheRest : Prop :=
  ∀ (i : Instr) (s s' : State), exec i s = .next s' →
    s'.pc = s.pc + 4 ∧ SamePlatform s s'
      ∧ (i.direction = .read → s'.cpacr = s.cpacr ∧ s'.pending = s.pending)
      ∧ (i.direction = .write → ∀ r, s'.readReg r = s.readReg r)
      ∧ (∀ t : Fin 15, t.val = i.rt.toNat → SameRegsBut t s s')

/-! ## The four instructions -/

/-- 40 R60, R69: MRC in A32, its condition passed and its access allowed, completes: `R[t]` is a direct read of CPACR, for
some values of what is UNKNOWN in it, and nothing else but `pc` and the count of draws changes. -/
def Obligations.MrcA32CompletesWithADirectRead : Prop :=
  ∀ (s : State) (c : Cond) (rt : BitVec 4) (t : Fin 15), t.val = rt.toNat → condPasses c s.flags = true →
    AccessAllowed s.config s.ctx →
    ∃ s' u, exec (.mrcA32 c rt) s = .next s'
      ∧ s'.readReg t = cpacrRead s.config s.ctx s.cpacr u
      ∧ s'.pc = s.pc + 4 ∧ s'.cpacr = s.cpacr ∧ s'.pending = s.pending ∧ SameRegsBut t s s' ∧ SamePlatform s s'

/-- 40 R60, R69: the same of MRC in T32, for every `t` it admits, under the condition of an enclosing IT block if there is
one. -/
def Obligations.MrcT32CompletesWithADirectRead : Prop :=
  ∀ (s : State) (rt : BitVec 4) (t : Fin 15), t.val = rt.toNat → rt ≠ 13#4 →
    (∀ c, s.ctx.itCond = some c → condPasses c s.flags = true) → AccessAllowed s.config s.ctx →
    ∃ s' u, exec (.mrcT32 rt) s = .next s'
      ∧ s'.readReg t = cpacrRead s.config s.ctx s.cpacr u
      ∧ s'.pc = s.pc + 4 ∧ s'.cpacr = s.cpacr ∧ s'.pending = s.pending ∧ SameRegsBut t s s' ∧ SamePlatform s s'

/-- 40 R61, R69: MCR in A32, its condition passed, its access allowed and its value with no 1 in a RES0 bit, completes: the
storage is the direct write of `R[t]`, the storage from before it stays visible to consultations only under `until_sync`
(70 R126), and nothing else but `pc` changes. -/
def Obligations.McrA32CompletesWithADirectWrite : Prop :=
  ∀ (s : State) (c : Cond) (rt : BitVec 4) (t : Fin 15), t.val = rt.toNat → condPasses c s.flags = true →
    AccessAllowed s.config s.ctx → WritesNoRes0 s.config (s.readReg t) →
    ∃ s', exec (.mcrA32 c rt) s = .next s'
      ∧ s'.cpacr = cpacrWrite s.config s.ctx s.cpacr (s.readReg t)
      ∧ (s.config.syncModel = .untilSync → s'.pending = s.pending ++ [s.cpacr])
      ∧ (s.config.syncModel = .immediate → s'.pending = s.pending)
      ∧ s'.pc = s.pc + 4 ∧ (∀ r, s'.readReg r = s.readReg r) ∧ SamePlatform s s'

/-- 40 R61, R69: the same of MCR in T32, for every `t` it admits, under the condition of an enclosing IT block if there is
one. -/
def Obligations.McrT32CompletesWithADirectWrite : Prop :=
  ∀ (s : State) (rt : BitVec 4) (t : Fin 15), t.val = rt.toNat → rt ≠ 13#4 →
    (∀ c, s.ctx.itCond = some c → condPasses c s.flags = true) →
    AccessAllowed s.config s.ctx → WritesNoRes0 s.config (s.readReg t) →
    ∃ s', exec (.mcrT32 rt) s = .next s'
      ∧ s'.cpacr = cpacrWrite s.config s.ctx s.cpacr (s.readReg t)
      ∧ (s.config.syncModel = .untilSync → s'.pending = s.pending ++ [s.cpacr])
      ∧ (s.config.syncModel = .immediate → s'.pending = s.pending)
      ∧ s'.pc = s.pc + 4 ∧ (∀ r, s'.readReg r = s.readReg r) ∧ SamePlatform s s'

/-- 10 R29 (R16, R17, R20, R24, R27): what an MCR that writes leaves in each field of the storage, the write-ignore conditions
written out. -/
def Obligations.McrWritesEachFieldUnderItsRule : Prop :=
  ∀ (i : Instr) (s s' : State) (t : Fin 15), i.direction = .write → t.val = i.rt.toNat →
    condPasses (instrCondition i s.ctx) s.flags = true → exec i s = .next s' →
    (s'.cpacr.asedis =
        if s.config.haveFPASIMD = true ∧ s.config.asedisRW = true
          ∧ ¬ (NonSecureView s.config s.ctx ∧ s.ctx.nsacrNsasedis = true)
        then (s.readReg t).getLsbD 31 else s.cpacr.asedis)
      ∧ (s'.cpacr.trcdis =
        if s.config.haveTraceSysRegs = true ∧ s.config.trcdisRW = true
          ∧ ¬ (NonSecureView s.config s.ctx ∧ s.ctx.nsacrNstrcdis = true)
        then .known ((s.readReg t).getLsbD 28) else s.cpacr.trcdis)
      ∧ (s'.cpacr.cp11 =
        if s.config.haveFPASIMD = true ∧ ¬ (NonSecureView s.config s.ctx ∧ s.ctx.nsacrCp10 = false)
        then (s.readReg t).extractLsb' 22 2 else s.cpacr.cp11)
      ∧ (s'.cpacr.cp10 =
        if s.config.haveFPASIMD = true ∧ ¬ (NonSecureView s.config s.ctx ∧ s.ctx.nsacrCp10 = false)
        then (s.readReg t).extractLsb' 20 2 else s.cpacr.cp10)
      ∧ (s'.cpacr.res0 = if s.config.res0Readback = true then s.readReg t &&& 0x6F0FFFFF#32 else s.cpacr.res0)

/-- 10 R17: where an access is allowed, MCR is refused exactly for a value with a 1 in a bit that is RES0 here. -/
def Obligations.McrIsRefusedExactlyForOnesInRes0 : Prop :=
  ∀ (i : Instr) (s : State) (t : Fin 15), i.direction = .write → i.wf = true → t.val = i.rt.toNat →
    condPasses (instrCondition i s.ctx) s.flags = true → AccessAllowed s.config s.ctx →
    (exec i s = .refused (.writesRes0 (s.readReg t)) ↔ ¬ WritesNoRes0 s.config (s.readReg t))

/-- 40 R63, R69: an admitted instruction whose condition fails is a no-op that moves to the next instruction, whatever the
access check would say. -/
def Obligations.FailedConditionIsANoOp : Prop :=
  ∀ (i : Instr) (s : State), i.wf = true → condPasses (instrCondition i s.ctx) s.flags = false →
    exec i s = .next { s with pc := s.pc + 4 }

/-- Model's choice (log 12): the numbers of the conditions in the A32 field and their tests of N, Z, C and V, each written out.
The spec lists the conditions' names only (30 R52's table). -/
def Obligations.ConditionsHaveTheirNumbersAndTests : Prop :=
  List.map encodeCond [.eq, .ne, .cs, .cc, .mi, .pl, .vs, .vc, .hi, .ls, .ge, .lt, .gt, .le, .al]
      = [0#4, 1#4, 2#4, 3#4, 4#4, 5#4, 6#4, 7#4, 8#4, 9#4, 10#4, 11#4, 12#4, 13#4, 14#4]
    ∧ ∀ f : Flags,
      (condPasses .eq f = true ↔ f.z = true) ∧ (condPasses .ne f = true ↔ f.z = false)
        ∧ (condPasses .cs f = true ↔ f.c = true) ∧ (condPasses .cc f = true ↔ f.c = false)
        ∧ (condPasses .mi f = true ↔ f.n = true) ∧ (condPasses .pl f = true ↔ f.n = false)
        ∧ (condPasses .vs f = true ↔ f.v = true) ∧ (condPasses .vc f = true ↔ f.v = false)
        ∧ (condPasses .hi f = true ↔ f.c = true ∧ f.z = false) ∧ (condPasses .ls f = true ↔ f.c = false ∨ f.z = true)
        ∧ (condPasses .ge f = true ↔ f.n = f.v) ∧ (condPasses .lt f = true ↔ f.n ≠ f.v)
        ∧ (condPasses .gt f = true ↔ f.z = false ∧ f.n = f.v) ∧ (condPasses .le f = true ↔ f.z = true ∨ f.n ≠ f.v)
        ∧ condPasses .al f = true

/-- 40 R68: `t` = 15, and `t` = 13 in T32, are refused; every other `t` is admitted. -/
def Obligations.OnlyAdmittedRegistersRun : Prop :=
  (∀ (c : Cond) (s : State), exec (.mrcA32 c 15#4) s = .refused (.rtNotAdmitted .a32 15#4)
      ∧ exec (.mcrA32 c 15#4) s = .refused (.rtNotAdmitted .a32 15#4))
    ∧ (∀ (rt : BitVec 4) (s : State), rt = 15#4 ∨ rt = 13#4 →
      exec (.mrcT32 rt) s = .refused (.rtNotAdmitted .t32 rt) ∧ exec (.mcrT32 rt) s = .refused (.rtNotAdmitted .t32 rt))
    ∧ (∀ (i : Instr) (s : State) (set : InstrSet) (rt : BitVec 4), i.rt ≠ 15#4 → (i.set = .t32 → i.rt ≠ 13#4) →
      exec i s ≠ .refused (.rtNotAdmitted set rt))

/-- 30 R51, R54: an instruction in T32 under an IT block's condition completes exactly as the same instruction in A32 with
that condition in its field. -/
def Obligations.T32CompletesAsA32UnderTheSameCondition : Prop :=
  ∀ (s s' : State) (c : Cond) (rt : BitVec 4), rt ≠ 13#4 → s.ctx.itCond = some c →
    (exec (.mrcT32 rt) s = .next s' ↔ exec (.mrcA32 c rt) s = .next s')
      ∧ (exec (.mcrT32 rt) s = .next s' ↔ exec (.mcrA32 c rt) s = .next s')

/-! ## The access check -/

/-- 40 R66: from EL0 both instructions are always UNDEFINED, in every configuration and with every trap control. -/
def Obligations.AccessFromEl0IsUndefined : Prop :=
  ∀ (i : Instr) (s : State), i.wf = true → condPasses (instrCondition i s.ctx) s.flags = true → s.ctx.el = .el0 →
    exec i s = .fault (.undefined (.instr i))

/-- 30 R56: with FEAT_AA32EL1 not implemented both instructions are UNDEFINED at every Exception level. -/
def Obligations.AbsentRegisterAccessIsUndefined : Prop :=
  ∀ (i : Instr) (s : State), i.wf = true → condPasses (instrCondition i s.ctx) s.flags = true →
    s.config.featAA32EL1 = false → exec i s = .fault (.undefined (.instr i))

/-- 40 R62, rows 3 to 9, and 60 R107: what an access from EL1 takes, by the priority of the controls. -/
def Obligations.AccessFromEl1TakesByPriority : Prop :=
  ∀ (i : Instr) (s : State), i.wf = true → condPasses (instrCondition i s.ctx) s.flags = true →
    s.config.featAA32EL1 = true → s.ctx.el = .el1 →
    (El3ControlsAccess s.config s.ctx → s.ctx.el3SDDUndefPriority = true → exec i s = .fault (.undefined (.instr i)))
      ∧ (¬ (El3ControlsAccess s.config s.ctx ∧ s.ctx.el3SDDUndefPriority = true) →
        (El2AArch64TrapsAccess s.config s.ctx → exec i s = .fault (.sysAccessTrap .el2 0x03 (.instr i)))
        ∧ (El2AArch32TrapsAccess s.config s.ctx → exec i s = .fault (.hypTrap 0x03 (.instr i)))
        ∧ (¬ El2AArch64TrapsAccess s.config s.ctx → ¬ El2AArch32TrapsAccess s.config s.ctx →
          El3ControlsAccess s.config s.ctx →
          exec i s = if s.ctx.el3SDDUndef = true then .fault (.undefined (.instr i))
            else .fault (.sysAccessTrap .el3 0x03 (.instr i))))

/-- 40 R65 and R62, rows 11 to 14: from EL2 only the EL3 control stops an access, and no EL2 control does. -/
def Obligations.AccessFromEl2IsStoppedOnlyByEl3 : Prop :=
  ∀ (i : Instr) (s : State) (t : Fin 15), i.wf = true → t.val = i.rt.toNat →
    condPasses (instrCondition i s.ctx) s.flags = true → s.config.featAA32EL1 = true → s.ctx.el = .el2 →
    (El3ControlsAccess s.config s.ctx →
        exec i s = if s.ctx.el3SDDUndefPriority = true ∨ s.ctx.el3SDDUndef = true then .fault (.undefined (.instr i))
          else .fault (.sysAccessTrap .el3 0x03 (.instr i)))
      ∧ (¬ El3ControlsAccess s.config s.ctx →
        (i.direction = .read →
          ∃ s' u, exec i s = .next s' ∧ s'.readReg t = cpacrRead s.config s.ctx s.cpacr u)
        ∧ (i.direction = .write → WritesNoRes0 s.config (s.readReg t) →
          ∃ s', exec i s = .next s' ∧ s'.cpacr = cpacrWrite s.config s.ctx s.cpacr (s.readReg t)))

/-- 40 R64: from EL3 both instructions always access the register and never trap. -/
def Obligations.AccessFromEl3IsNeverTrapped : Prop :=
  ∀ (i : Instr) (s : State) (t : Fin 15), i.wf = true → t.val = i.rt.toNat →
    condPasses (instrCondition i s.ctx) s.flags = true → s.config.featAA32EL1 = true → s.ctx.el = .el3 →
    (∀ f, exec i s ≠ .fault f)
      ∧ (i.direction = .read → ∃ s' u, exec i s = .next s' ∧ s'.readReg t = cpacrRead s.config s.ctx s.cpacr u)
      ∧ (i.direction = .write → WritesNoRes0 s.config (s.readReg t) →
        ∃ s', exec i s = .next s' ∧ s'.cpacr = cpacrWrite s.config s.ctx s.cpacr (s.readReg t))

/-- 60 R101: a Hyp trap is raised only from EL1, only when EL2 is enabled and using AArch32 and one of its two bits is set,
with the argument 0x03. -/
def Obligations.HypTrapIsRaisedOnlyByEl2AArch32 : Prop :=
  ∀ (i : Instr) (s : State) (v : Nat) (c : Cause), exec i s = .fault (.hypTrap v c) →
    v = 0x03 ∧ c = .instr i ∧ s.ctx.el = .el1 ∧ s.ctx.el2Enabled = true ∧ s.config.featAA32EL2 = true
      ∧ s.ctx.el2UsingAArch32 = true ∧ (s.ctx.hstrT1 = true ∨ s.ctx.hcptrTcpac = true)

/-- 60 R102: a System access trap to EL2 is raised only from EL1, only when EL2 is enabled and using AArch64 and one of its two
bits is set, with the argument 0x03. -/
def Obligations.TrapToEl2IsRaisedOnlyByEl2AArch64 : Prop :=
  ∀ (i : Instr) (s : State) (v : Nat) (c : Cause), exec i s = .fault (.sysAccessTrap .el2 v c) →
    v = 0x03 ∧ c = .instr i ∧ s.ctx.el = .el1 ∧ s.ctx.el2Enabled = true ∧ s.config.featAA64EL2 = true
      ∧ s.ctx.el2UsingAArch32 = false ∧ (s.ctx.hstrEl2T1 = true ∨ s.ctx.cptrEl2Tcpac = true)

/-- 60 R103: a System access trap to EL3 is raised only from EL1 or EL2, only by the EL3 control with `EL3SDDUndef()` false, from
EL1 only when no EL2 trap applies, with the argument 0x03; and where `EL3SDDUndef()` holds the outcome is Undefined instead. -/
def Obligations.TrapToEl3IsRaisedOnlyByTheEl3Control : Prop :=
  ∀ (i : Instr) (s : State),
    (∀ (v : Nat) (c : Cause), exec i s = .fault (.sysAccessTrap .el3 v c) →
      v = 0x03 ∧ c = .instr i ∧ (s.ctx.el = .el1 ∨ s.ctx.el = .el2) ∧ s.config.haveEL3 = true
        ∧ s.config.featAA64EL3 = true ∧ s.ctx.el3UsingAArch32 = false ∧ s.ctx.cptrEl3Tcpac = true
        ∧ s.ctx.el3SDDUndef = false
        ∧ (s.ctx.el = .el1 → ¬ El2AArch64TrapsAccess s.config s.ctx ∧ ¬ El2AArch32TrapsAccess s.config s.ctx))
    ∧ (i.wf = true → condPasses (instrCondition i s.ctx) s.flags = true → s.ctx.el3SDDUndef = true →
      El3ControlsAccess s.config s.ctx →
      (s.ctx.el = .el2 ∨ (s.ctx.el = .el1 ∧ ¬ El2AArch64TrapsAccess s.config s.ctx
        ∧ ¬ El2AArch32TrapsAccess s.config s.ctx)) →
      exec i s = .fault (.undefined (.instr i)))

/-- 40 R62, last consequence: the check is the same for read and write, so MRC and MCR of the same condition and register
take the same exceptions. -/
def Obligations.ReadAndWriteTakeTheSameExceptions : Prop :=
  ∀ (s : State) (c : Cond) (rt : BitVec 4),
    (exec (.mrcA32 c rt) s = .fault (.undefined (.instr (.mrcA32 c rt))) ↔
        exec (.mcrA32 c rt) s = .fault (.undefined (.instr (.mcrA32 c rt))))
      ∧ (∀ v, exec (.mrcA32 c rt) s = .fault (.hypTrap v (.instr (.mrcA32 c rt))) ↔
        exec (.mcrA32 c rt) s = .fault (.hypTrap v (.instr (.mcrA32 c rt))))
      ∧ (∀ el v, exec (.mrcA32 c rt) s = .fault (.sysAccessTrap el v (.instr (.mrcA32 c rt))) ↔
        exec (.mcrA32 c rt) s = .fault (.sysAccessTrap el v (.instr (.mcrA32 c rt))))
      ∧ (exec (.mrcT32 rt) s = .fault (.undefined (.instr (.mrcT32 rt))) ↔
        exec (.mcrT32 rt) s = .fault (.undefined (.instr (.mcrT32 rt))))
      ∧ (∀ v, exec (.mrcT32 rt) s = .fault (.hypTrap v (.instr (.mrcT32 rt))) ↔
        exec (.mcrT32 rt) s = .fault (.hypTrap v (.instr (.mcrT32 rt))))
      ∧ (∀ el v, exec (.mrcT32 rt) s = .fault (.sysAccessTrap el v (.instr (.mrcT32 rt))) ↔
        exec (.mcrT32 rt) s = .fault (.sysAccessTrap el v (.instr (.mcrT32 rt))))

/-- 40 R62, fourth consequence: neither NSACR nor the Security state bit makes an access trap or be UNDEFINED. -/
def Obligations.NsacrNeverMakesAnAccessTrap : Prop :=
  ∀ (i : Instr) (s : State) (f : Fault) (secure cp10 nsasedis nstrcdis : Bool),
    (exec i s = .fault f ↔
      exec i
        { s with
          ctx :=
            { s.ctx with
              isSecure := secure
              nsacrCp10 := cp10
              nsacrNsasedis := nsasedis
              nsacrNstrcdis := nstrcdis } } = .fault f)

/-! ## The views of the fields -/

/-- 10 R10, R11: the layout table. Each field has its mask, every bit is in exactly one field, a direct read has each field's read
at its place (R28), a write takes each field it stores from that field's place (R29; R16, R17, R20, R24, R27), and it reads a value
nowhere else. -/
def Obligations.LayoutPlacesEveryField : Prop :=
  (CpacrField.asedis.mask = 0x80000000#32 ∧ CpacrField.res30.mask = 0x60000000#32 ∧ CpacrField.trcdis.mask = 0x10000000#32
      ∧ CpacrField.res27.mask = 0x0F000000#32 ∧ CpacrField.cp11.mask = 0x00C00000#32 ∧ CpacrField.cp10.mask = 0x00300000#32
      ∧ CpacrField.res19.mask = 0x000FFFFF#32 ∧ namedFields = 0x90F00000#32 ∧ alwaysReserved = 0x6F0FFFFF#32)
    ∧ (∀ k, k < 32 → ∃ f : CpacrField, f.mask.getLsbD k = true ∧ ∀ f', f'.mask.getLsbD k = true → f' = f)
    ∧ (∀ (cfg : Config) (ctx : Context) (S : Cpacr) (u : ReadDraws),
      cpacrRead cfg ctx S u &&& 0x80000000#32 = (BitVec.ofBool (readAsedis cfg ctx S u)).setWidth 32 <<< 31
        ∧ cpacrRead cfg ctx S u &&& 0x10000000#32 = (BitVec.ofBool (readTrcdis cfg ctx S u)).setWidth 32 <<< 28
        ∧ cpacrRead cfg ctx S u &&& 0x00C00000#32 = (readCp11 cfg ctx S u).setWidth 32 <<< 22
        ∧ cpacrRead cfg ctx S u &&& 0x00300000#32 = (effCp10 cfg ctx S).setWidth 32 <<< 20
        ∧ cpacrRead cfg ctx S u &&& 0x6F0FFFFF#32 = readRes0 cfg S &&& 0x6F0FFFFF#32)
    ∧ (∀ (cfg : Config) (ctx : Context) (S : Cpacr) (v : Word),
      (cpacrWrite cfg ctx S v).asedis =
          (if cfg.haveFPASIMD = true ∧ cfg.asedisRW = true ∧ ¬ (NonSecureView cfg ctx ∧ ctx.nsacrNsasedis = true)
          then v.getLsbD 31 else S.asedis)
        ∧ (cpacrWrite cfg ctx S v).trcdis =
          (if cfg.haveTraceSysRegs = true ∧ cfg.trcdisRW = true ∧ ¬ (NonSecureView cfg ctx ∧ ctx.nsacrNstrcdis = true)
          then .known (v.getLsbD 28) else S.trcdis)
        ∧ (cpacrWrite cfg ctx S v).cp11 =
          (if cfg.haveFPASIMD = true ∧ ¬ (NonSecureView cfg ctx ∧ ctx.nsacrCp10 = false) then v.extractLsb' 22 2 else S.cp11)
        ∧ (cpacrWrite cfg ctx S v).cp10 =
          (if cfg.haveFPASIMD = true ∧ ¬ (NonSecureView cfg ctx ∧ ctx.nsacrCp10 = false) then v.extractLsb' 20 2 else S.cp10)
        ∧ (cpacrWrite cfg ctx S v).res0 = (if cfg.res0Readback = true then v &&& 0x6F0FFFFF#32 else S.res0))
    ∧ (∀ (cfg : Config) (ctx : Context) (S : Cpacr) (v w : Word), v &&& 0x90F00000#32 = w &&& 0x90F00000#32 →
      (cfg.res0Readback = true → v &&& 0x6F0FFFFF#32 = w &&& 0x6F0FFFFF#32) →
      cpacrWrite cfg ctx S v = cpacrWrite cfg ctx S w)

/-- 10 R15: the effective value of ASEDIS, and its direct read in bit 31. That bit 31 is free where RES0 and RAO/WI both apply is
a choice (92 D4; log 19). -/
def Obligations.AsedisReadsAsItBehaves : Prop :=
  ∀ (cfg : Config) (ctx : Context) (S : Cpacr) (u : ReadDraws),
    (effAsedis cfg ctx S =
      if cfg.haveFPASIMD = false then false
      else if NonSecureView cfg ctx ∧ ctx.nsacrNsasedis = true then true
      else if cfg.asedisRW = false then false
      else S.asedis)
    ∧ (cpacrRead cfg ctx S u).getLsbD 31 =
      (if cfg.haveFPASIMD = false ∧ NonSecureView cfg ctx ∧ ctx.nsacrNsasedis = true then u.asedis
        else effAsedis cfg ctx S)

/-- 10 R19: the effective value of TRCDIS, any value at all while it is `unknown`, and its direct read in bit 28. That bit 28 is
free where RES0 and RAO/WI both apply is a choice (92 D4; log 19). -/
def Obligations.TrcdisReadsAsItBehaves : Prop :=
  ∀ (cfg : Config) (ctx : Context) (S : Cpacr) (u : ReadDraws) (draw : Bool),
    (effTrcdis cfg ctx S draw =
      if cfg.haveTraceSysRegs = false then false
      else if NonSecureView cfg ctx ∧ ctx.nsacrNstrcdis = true then true
      else if cfg.trcdisRW = false then false
      else match S.trcdis with
        | .known b => b
        | .unknown => draw)
    ∧ (cpacrRead cfg ctx S u).getLsbD 28 =
      (if cfg.haveTraceSysRegs = false ∧ NonSecureView cfg ctx ∧ ctx.nsacrNstrcdis = true then u.trcdis
        else effTrcdis cfg ctx S u.trcdis)

/-- 10 R23, the direct read of cp11: zero where absent or overridden; UNKNOWN, that is every value for some draw, where it
differs from cp10; else what is stored. -/
def Obligations.Cp11ReadsUnknownWhenItDiffersFromCp10 : Prop :=
  ∀ (cfg : Config) (ctx : Context) (S : Cpacr),
    ((cfg.haveFPASIMD = false ∨ (NonSecureView cfg ctx ∧ ctx.nsacrCp10 = false)) →
      ∀ u, (cpacrRead cfg ctx S u).extractLsb' 22 2 = 0b00#2)
    ∧ (cfg.haveFPASIMD = true → ¬ (NonSecureView cfg ctx ∧ ctx.nsacrCp10 = false) →
      (S.cp11 ≠ S.cp10 → ∀ x : BitVec 2, ∃ u, (cpacrRead cfg ctx S u).extractLsb' 22 2 = x)
      ∧ (S.cp11 = S.cp10 → ∀ u, (cpacrRead cfg ctx S u).extractLsb' 22 2 = S.cp11))

/-- 10 R26: the effective value of cp10 is what bits 21:20 of a direct read hold. That a stored 0b10 reads back as 0b10 is a
choice (92 D6; log 21). -/
def Obligations.Cp10ReadsAsItBehaves : Prop :=
  ∀ (cfg : Config) (ctx : Context) (S : Cpacr) (u : ReadDraws),
    (effCp10 cfg ctx S =
      if cfg.haveFPASIMD = false then 0b00#2
      else if NonSecureView cfg ctx ∧ ctx.nsacrCp10 = false then 0b00#2
      else S.cp10)
    ∧ (cpacrRead cfg ctx S u).extractLsb' 20 2 = effCp10 cfg ctx S

/-- 10 R17: the always-reserved bits of a direct read are zero, or, with RES0_READBACK, what is stored there. -/
def Obligations.ReservedBitsReadZeroOrBack : Prop :=
  ∀ (cfg : Config) (ctx : Context) (S : Cpacr) (u : ReadDraws),
    (cfg.res0Readback = false → cpacrRead cfg ctx S u &&& 0x6F0FFFFF#32 = 0#32)
      ∧ (cfg.res0Readback = true → cpacrRead cfg ctx S u &&& 0x6F0FFFFF#32 = S.res0 &&& 0x6F0FFFFF#32)

/-- Model's choice of numbers (log 17), for 10 R19, R23 and 92 D7 (a fresh draw at each evaluation): a completed MRC and a
permitted gated instruction draw by the numbers from the counter on and move the counter past them, and no step moves it back, so
no two evaluations share a number. -/
def Obligations.EveryEvaluationDrawsAfresh : Prop :=
  (∀ s s' : State, step s = .next s' → s.draws ≤ s'.draws)
    ∧ (∀ (i : Instr) (s s' : State) (t : Fin 15), i.direction = .read → t.val = i.rt.toNat →
      condPasses (instrCondition i s.ctx) s.flags = true → exec i s = .next s' →
      s'.draws = s.draws + 3
        ∧ s'.readReg t = cpacrRead s.config s.ctx s.cpacr
          { asedis := Config.drawBit s.draws
            trcdis := Config.drawBit (s.draws + 1)
            cp11 := Config.drawPair (s.draws + 2) })
    ∧ (∀ (s s' : State) (g : GatedInstr) (p : Pe) (rest : List Input), s.inputs = .gated g p :: rest → step s = .next s' →
      s'.draws = s.draws + 5
        ∧ s.cpacrMakesUndefined g
          { pickCp10 := Config.drawIndex s.draws
            pickAsedis := Config.drawIndex (s.draws + 1)
            pickTrcdis := Config.drawIndex (s.draws + 2)
            trcdis := Config.drawBit (s.draws + 3)
            pl0 := Config.drawBit (s.draws + 4) } = false)

/-- 10 R12, R28, R29 and 70 R126 (a later MRC in program order sees the new storage, under either SYNC_MODEL): with every
field present and RW, a value with equal cp11 and cp10 that an MCR wrote is what a later MRC reads, in the same context or in
another one, the other Security state's included, where no override applies in either: one storage, not banked. -/
def Obligations.LaterReadGivesTheValueWritten : Prop :=
  ∀ (s s1 s2 : State) (ctx2 : Context) (w r : Instr) (tw tr : Fin 15),
    w.direction = .write → r.direction = .read → tw.val = w.rt.toNat → tr.val = r.rt.toNat →
    condPasses (instrCondition w s.ctx) s.flags = true → condPasses (instrCondition r ctx2) s.flags = true →
    s.config.haveFPASIMD = true → s.config.haveTraceSysRegs = true → s.config.asedisRW = true →
    s.config.trcdisRW = true → NoOverride s.config s.ctx → NoOverride s.config ctx2 →
    (s.readReg tw).extractLsb' 22 2 = (s.readReg tw).extractLsb' 20 2 →
    exec w s = .next s1 → exec r { s1 with ctx := ctx2 } = .next s2 → s2.readReg tr = s.readReg tw

/-- 41 R93: in Non-secure state with EL3 using AArch32 and `NSACR.cp10 == '0'`, cp10 behaves as 0b00, CPACR
makes every instruction of the class of R82 (each gated one but a trace access) UNDEFINED at PL0 and PL1 whatever is stored, and no
instruction changes cp10 or cp11. -/
def Obligations.NonSecureStateCannotEnableWithheldFp : Prop :=
  ∀ s : State, NonSecureView s.config s.ctx → s.ctx.nsacrCp10 = false →
    (∀ S, effCp10 s.config s.ctx S = 0b00#2)
    ∧ (∀ (g : GatedInstr) (p : Pe) (rest : List Input), s.inputs = .gated g p :: rest → g ≠ .traceSystemRegisterAccess →
      GatedPrivilege s.config s.ctx → step s = .fault (.undefined (.gated g)))
    ∧ (∀ (i : Instr) (s' : State), exec i s = .next s' → s'.cpacr.cp10 = s.cpacr.cp10 ∧ s'.cpacr.cp11 = s.cpacr.cp11)

/-! ## The gated instructions -/

/-- 41 R81, for the class of R82, each gated instruction but a trace access (values 0b00, 0b01 and 0b11 of an effective cp10
that is the stored one): UNDEFINED at PL0 and PL1, at PL0 only, and never; an Advanced SIMD only encoding is permitted where
ASEDIS too behaves as 0 (R85, R91). That the environment supplies the state a permitted instruction leaves is the model's choice
(log 25). -/
def Obligations.Cp10GrantsFpByPrivilege : Prop :=
  ∀ (s : State) (g : GatedInstr) (p : Pe) (rest : List Input), s.inputs = .gated g p :: rest → s.pending = [] →
    GatedPrivilege s.config s.ctx → s.config.haveFPASIMD = true →
    ¬ (NonSecureView s.config s.ctx ∧ s.ctx.nsacrCp10 = false) → g ≠ .traceSystemRegisterAccess →
    (s.cpacr.cp10 = 0b00#2 → step s = .fault (.undefined (.gated g)))
      ∧ (s.cpacr.cp10 = 0b01#2 → s.ctx.el = .el0 → step s = .fault (.undefined (.gated g)))
      ∧ ((g = .advancedSimdOnly → AsedisBehavesAs0 s.config s.ctx s.cpacr) →
        (s.cpacr.cp10 = 0b01#2 ∧ s.ctx.el ≠ .el0) ∨ s.cpacr.cp10 = 0b11#2 →
        ∃ s', step s = .next s' ∧ s'.cpacr = s.cpacr ∧ s'.pending = s.pending ∧ s'.config = s.config
          ∧ s'.memory = s.memory ∧ s'.regs = p.regs ∧ s'.pc = p.pc ∧ s'.flags = p.flags ∧ s'.ctx = p.ctx
          ∧ s'.inputs = rest)

/-- 41 R83, for the class of R82, each gated instruction but a trace access: the reserved value 0b10 behaves as the
implementation's choice says: as 0b00, 0b01 or 0b11, or UNDEFINED at PL1 with PL0 left open, one of the two outcomes (92 D6; log
21). An Advanced SIMD only encoding is permitted where ASEDIS too behaves as 0. That a permitted instruction completes, leaves
CPACR and the pending storages alone and takes its context from the environment is the model's choice (log 25). -/
def Obligations.ReservedCp10BehavesAsTheChosenOption : Prop :=
  ∀ (s : State) (g : GatedInstr) (p : Pe) (rest : List Input), s.inputs = .gated g p :: rest → s.pending = [] →
    GatedPrivilege s.config s.ctx → s.config.haveFPASIMD = true →
    ¬ (NonSecureView s.config s.ctx ∧ s.ctx.nsacrCp10 = false) → g ≠ .traceSystemRegisterAccess → s.cpacr.cp10 = 0b10#2 →
    (s.config.cp10Reserved = .as00 → step s = .fault (.undefined (.gated g)))
      ∧ (s.config.cp10Reserved = .as01 → s.ctx.el = .el0 → step s = .fault (.undefined (.gated g)))
      ∧ (s.config.cp10Reserved = .pl1undef → s.ctx.el ≠ .el0 → step s = .fault (.undefined (.gated g)))
      ∧ ((g = .advancedSimdOnly → AsedisBehavesAs0 s.config s.ctx s.cpacr) →
        ((s.config.cp10Reserved = .as01 ∧ s.ctx.el ≠ .el0) ∨ s.config.cp10Reserved = .as11 →
          ∃ s', step s = .next s' ∧ s'.cpacr = s.cpacr ∧ s'.pending = s.pending ∧ s'.ctx = p.ctx)
        ∧ (s.config.cp10Reserved = .pl1undef → s.ctx.el = .el0 → ∀ u, s.cpacrMakesUndefined g u = u.pl0))

/-- 41 R80: CPACR has no effect on instructions executed at EL2, whatever its storage, pending storages, parameters and the
other inputs are; such an instruction leaves the storage and the window of 70 R126 alone. That the environment supplies the rest
is the model's choice (log 25). -/
def Obligations.NothingIsGatedAtEl2 : Prop :=
  ∀ (s : State) (g : GatedInstr) (p : Pe) (rest : List Input), s.inputs = .gated g p :: rest → s.ctx.el = .el2 →
    ∃ s', step s = .next s' ∧ s'.cpacr = s.cpacr ∧ s'.pending = s.pending ∧ s'.config = s.config ∧ s'.memory = s.memory
      ∧ s'.regs = p.regs ∧ s'.pc = p.pc ∧ s'.flags = p.flags ∧ s'.ctx = p.ctx ∧ s'.inputs = rest

/-- 41 R85: where ASEDIS behaves as 1, stored or by the override, an Advanced SIMD only encoding is UNDEFINED at PL0 and PL1;
where it behaves as 0 and cp10 permits the level (R81, R83), it is not; and no other instruction's gating depends on ASEDIS.
That the override gates too is deduced (92 D5; log 20); that a permitted instruction completes, leaves CPACR and the pending
storages alone and takes its context from the environment is the model's choice (log 25). -/
def Obligations.AsedisDisablesOnlyAdvancedSimd : Prop :=
  ∀ (s : State) (p : Pe) (rest : List Input), s.pending = [] → s.config.haveFPASIMD = true →
    GatedPrivilege s.config s.ctx →
    (s.inputs = .gated .advancedSimdOnly p :: rest →
      ((NonSecureView s.config s.ctx ∧ s.ctx.nsacrNsasedis = true) ∨ (s.config.asedisRW = true ∧ s.cpacr.asedis = true) →
        step s = .fault (.undefined (.gated .advancedSimdOnly)))
      ∧ (AsedisBehavesAs0 s.config s.ctx s.cpacr → ¬ (NonSecureView s.config s.ctx ∧ s.ctx.nsacrCp10 = false) →
        Cp10Permits s.config s.ctx s.cpacr →
        ∃ s', step s = .next s' ∧ s'.cpacr = s.cpacr ∧ s'.pending = s.pending ∧ s'.ctx = p.ctx))
    ∧ (∀ (g : GatedInstr) (b : Bool), g ≠ .advancedSimdOnly →
      State.gate { s with cpacr := { s.cpacr with asedis := b } } g = s.gate g)

/-- 41 R86: where TRCDIS behaves as 1, a trace System register access is UNDEFINED at PL0 and PL1; where it behaves as 0, one is
not, at PL1 and, but for R88's features, at PL0; and while it is `unknown` both outcomes are allowed, by a draw (92 D8; log 18).
That the override gates too is deduced (92 D5; log 20); that a permitted access completes, leaves CPACR and the pending storages
alone and takes its context from the environment is the model's choice (log 25). -/
def Obligations.TrcdisTrapsTraceAccesses : Prop :=
  ∀ (s : State) (p : Pe) (rest : List Input), s.inputs = .gated .traceSystemRegisterAccess p :: rest → s.pending = [] →
    GatedPrivilege s.config s.ctx →
    (s.config.haveTraceSysRegs = true →
      (NonSecureView s.config s.ctx ∧ s.ctx.nsacrNstrcdis = true)
        ∨ (s.config.trcdisRW = true ∧ s.cpacr.trcdis = .known true) →
      step s = .fault (.undefined (.gated .traceSystemRegisterAccess)))
    ∧ ((s.ctx.el = .el0 → s.config.featETMv4 = false ∧ s.config.featETE = false) →
      s.config.haveTraceSysRegs = false
        ∨ (¬ (NonSecureView s.config s.ctx ∧ s.ctx.nsacrNstrcdis = true)
          ∧ (s.config.trcdisRW = false ∨ s.cpacr.trcdis = .known false)) →
      ∃ s', step s = .next s' ∧ s'.cpacr = s.cpacr ∧ s'.pending = s.pending ∧ s'.ctx = p.ctx)
    ∧ (s.config.haveTraceSysRegs = true → s.config.trcdisRW = true → s.cpacr.trcdis = .unknown →
      ¬ (NonSecureView s.config s.ctx ∧ s.ctx.nsacrNstrcdis = true) →
      ∀ u, s.cpacrMakesUndefined .traceSystemRegisterAccess u = u.trcdis)

/-- 41 R88: with FEAT_ETMv4 or FEAT_ETE an EL0 access to a trace System register is UNDEFINED, whatever TRCDIS holds. -/
def Obligations.El0TraceAccessIsUndefined : Prop :=
  ∀ (s : State) (p : Pe) (rest : List Input), s.inputs = .gated .traceSystemRegisterAccess p :: rest →
    s.config.featETMv4 = true ∨ s.config.featETE = true → s.ctx.el = .el0 →
    step s = .fault (.undefined (.gated .traceSystemRegisterAccess))

/-- 41 R94 and 00 R2: where the spec gives no gating rule the step stops by name, and does not conclude that the instruction
is permitted: an EL0 instruction under an AArch64 EL1, and any level but EL2 with FEAT_AA32EL1 absent, a trace access included
but for the one that 41 R88 makes UNDEFINED in every case (log 26). -/
def Obligations.GatingWithoutARuleIsRefused : Prop :=
  ∀ (s : State) (g : GatedInstr) (p : Pe) (rest : List Input), s.inputs = .gated g p :: rest →
    ¬ (g = .traceSystemRegisterAccess ∧ s.ctx.el = .el0 ∧ (s.config.featETMv4 = true ∨ s.config.featETE = true)) →
    (s.ctx.el = .el0 ∧ s.ctx.el1UsingAArch32 = false) ∨ (s.ctx.el ≠ .el2 ∧ s.config.featAA32EL1 = false) →
    step s = .refused (.gatingNotSpecified g)

/-- 41 R84: cp11 is ignored: for another value of it, in the storage or in an earlier one that is still visible, no instruction is
gated otherwise, MRC and MCR take the same exceptions, and a direct read differs in bits 23:22 alone. -/
def Obligations.Cp11IsIgnored : Prop :=
  ∀ (s : State) (x : BitVec 2),
    (∀ (g : GatedInstr) (u : GateDraws),
      State.cpacrMakesUndefined
        { s with
          cpacr := { s.cpacr with cp11 := x }
          pending := s.pending.map fun S => { S with cp11 := x } } g u = s.cpacrMakesUndefined g u)
    ∧ (∀ (i : Instr) (f : Fault),
      exec i { s with cpacr := { s.cpacr with cp11 := x } } = .fault f ↔ exec i s = .fault f)
    ∧ (∀ u : ReadDraws,
      cpacrRead s.config s.ctx { s.cpacr with cp11 := x } u &&& ~~~0x00C00000#32
        = cpacrRead s.config s.ctx s.cpacr u &&& ~~~0x00C00000#32)

/-- 41 R92: after a Warm reset every instruction of the class of R82, each gated one but a trace access, is UNDEFINED at PL0 and
PL1 until software writes cp10: the reset makes every visible cp10 0b00; every step that leaves the stored cp10 at 0b00 keeps that;
and while it holds, a step that meets such an instruction faults. That a Warm reset closes the window is deduced (log 23); that a
permitted gated instruction leaves CPACR alone is the model's choice (log 25). -/
def Obligations.FpIsUndefinedAfterWarmResetUntilCp10IsWritten : Prop :=
  (∀ (s : State) (p : Pe) (rest : List Input), s.inputs = .warmReset p :: rest →
      ∃ s', step s = .next s' ∧ Cp10Clear s')
    ∧ (∀ s s' : State, Cp10Clear s → step s = .next s' → s'.cpacr.cp10 = 0b00#2 → Cp10Clear s')
    ∧ (∀ (s : State) (g : GatedInstr) (p : Pe) (rest : List Input), Cp10Clear s → s.inputs = .gated g p :: rest →
      g ≠ .traceSystemRegisterAccess → GatedPrivilege s.config s.ctx → step s = .fault (.undefined (.gated g)))

/-! ## The window of a write (70 R126) -/

/-- 70 R126: after an MCR that writes, a consultation sees the new storage under `immediate`; under `until_sync` it sees the new
one, the one from just before it or one that was still visible then, and each of these for some choice; after a context
synchronisation event it sees the new one. That a storage from before an earlier write stays visible too is the model's choice
(log 22). -/
def Obligations.WriteIsVisibleAsTheSyncModelSays : Prop :=
  ∀ (i : Instr) (s s' : State), i.direction = .write → condPasses (instrCondition i s.ctx) s.flags = true →
    exec i s = .next s' →
    (s.config.syncModel = .immediate → ∀ k, s'.seenCpacr k = s'.cpacr)
      ∧ (s.config.syncModel = .untilSync →
        ∀ S, (∃ k, s'.seenCpacr k = S) ↔ S = s'.cpacr ∨ S = s.cpacr ∨ S ∈ s.pending)
      ∧ (∀ (rest : List Input) (s2 : State), step { s' with inputs := .contextSync :: rest } = .next s2 →
        s2.cpacr = s'.cpacr ∧ ∀ k, s2.seenCpacr k = s'.cpacr)

/-- 41 R91, 70 R126: whatever storages are pending, each of the three controls is decided by a visible storage (the current one
or, under `until_sync`, a pending one), each visible one for some draws and the three chosen independently; and a step that
meets a gated instruction ends in Undefined exactly where the test holds for the draws numbered from the counter on, and else
completes (but for R88's trace access, which is UNDEFINED whatever the test says). The `unknown` TRCDIS, the gating of an override
and the reserved cp10 are as 92 D8, D5 and D6 decide (log 18, 20, 21). Model's choice: which storages stay visible (log 22), the
numbers of the draws (log 17), and that a permitted instruction leaves CPACR and the pending storages alone and the rest to the
environment (log 25). -/
def Obligations.EachControlConsultsAVisibleStorage : Prop :=
  ∀ s : State, GatedPrivilege s.config s.ctx →
    (∀ u : GateDraws, ∃ Sc Sa St, Visible s Sc ∧ Visible s Sa ∧ Visible s St
      ∧ ∀ g, s.cpacrMakesUndefined g u = true ↔ Denies s.config s.ctx Sc Sa St u.pl0 u.trcdis g)
    ∧ (∀ (Sc Sa St : Cpacr) (pl0 trcdis : Bool), Visible s Sc → Visible s Sa → Visible s St →
      ∃ u : GateDraws, ∀ g, s.cpacrMakesUndefined g u = true ↔ Denies s.config s.ctx Sc Sa St pl0 trcdis g)
    ∧ (∀ (g : GatedInstr) (p : Pe) (rest : List Input) (u : GateDraws), s.inputs = .gated g p :: rest →
      ¬ (g = .traceSystemRegisterAccess ∧ s.ctx.el = .el0 ∧ (s.config.featETMv4 = true ∨ s.config.featETE = true)) →
      u = { pickCp10 := Config.drawIndex s.draws
            pickAsedis := Config.drawIndex (s.draws + 1)
            pickTrcdis := Config.drawIndex (s.draws + 2)
            trcdis := Config.drawBit (s.draws + 3)
            pl0 := Config.drawBit (s.draws + 4) } →
      (s.cpacrMakesUndefined g u = true ↔ step s = .fault (.undefined (.gated g)))
        ∧ (s.cpacrMakesUndefined g u = false →
          ∃ s', step s = .next s' ∧ s'.cpacr = s.cpacr ∧ s'.pending = s.pending ∧ s'.config = s.config
            ∧ s'.memory = s.memory ∧ s'.regs = p.regs ∧ s'.pc = p.pc ∧ s'.flags = p.flags ∧ s'.ctx = p.ctx
            ∧ s'.inputs = rest))

/-- 70 R126: `until_sync` admits every behaviour `immediate` admits: whatever a gated instruction draws under `immediate`, some
draw under `until_sync` gates it the same. -/
def Obligations.UntilSyncAdmitsWhatImmediateAdmits : Prop :=
  ∀ (s : State) (g : GatedInstr) (u : GateDraws),
    ∃ u', State.cpacrMakesUndefined { s with config := { s.config with syncModel := .untilSync } } g u' =
      State.cpacrMakesUndefined { s with config := { s.config with syncModel := .immediate } } g u

/-! ## The environment's inputs -/

/-- 41 R89: an access to a trace register through the external debug interface is never trapped, whatever TRCDIS holds. That it
changes nothing here is the model's choice (log 29). -/
def Obligations.ExternalDebugAccessIsNeverTrapped : Prop :=
  ∀ (s : State) (rest : List Input), s.inputs = .externalDebugTraceAccess :: rest →
    step s = .next { s with inputs := rest }

/-- Model's choice (log 2, 8), of the inputs of 10 R33 to R35 and 70 R123, R126: a change of context, a synchronisation event
and a byte of the program each change what they name and nothing else, every other byte of the program included. -/
def Obligations.InputsChangeOnlyWhatTheyName : Prop :=
  ∀ (s : State) (rest : List Input),
    (∀ ctx, s.inputs = .setContext ctx :: rest → step s = .next { s with ctx := ctx, inputs := rest })
      ∧ (s.inputs = .contextSync :: rest → step s = .next { s with pending := [], inputs := rest })
      ∧ (∀ a v, s.inputs = .storeByte a v :: rest →
        ∃ s', step s = .next s' ∧ Memory.read s'.memory a = some v
          ∧ (∀ x, x ≠ a → Memory.read s'.memory x = Memory.read s.memory x)
          ∧ s'.config = s.config ∧ s'.cpacr = s.cpacr ∧ s'.pending = s.pending ∧ s'.regs = s.regs ∧ s'.pc = s.pc
          ∧ s'.flags = s.flags ∧ s'.ctx = s.ctx ∧ s'.inputs = rest ∧ s'.draws = s.draws)

/-- Model's choice (log 22, 27), of 00 R5: a write under the name CPACR_EL1 always completes; it is a write of the same storage,
the reserved bits as the implementation can hold them; it opens the window of 70 R126 as an MCR does and changes nothing else; and
a later MRC reads what was written. -/
def Obligations.WriteAsCpacrEl1IsReadByMrc : Prop :=
  ∀ (s : State) (S : Cpacr) (rest : List Input), s.inputs = .cpacrEl1Write S :: rest →
    ∃ s1, step s = .next s1
      ∧ s1.cpacr.asedis = S.asedis ∧ s1.cpacr.trcdis = S.trcdis ∧ s1.cpacr.cp11 = S.cp11 ∧ s1.cpacr.cp10 = S.cp10
      ∧ (s1.cpacr.res0 = if s.config.res0Readback = true then S.res0 &&& 0x6F0FFFFF#32 else 0#32)
      ∧ (s.config.syncModel = .untilSync → s1.pending = s.pending ++ [s.cpacr])
      ∧ (s.config.syncModel = .immediate → s1.pending = s.pending)
      ∧ s1.config = s.config ∧ s1.regs = s.regs ∧ s1.pc = s.pc ∧ s1.flags = s.flags ∧ s1.ctx = s.ctx
      ∧ s1.memory = s.memory ∧ s1.inputs = rest ∧ s1.draws = s.draws
      ∧ (∀ (i : Instr) (t : Fin 15) (s2 : State), i.direction = .read → t.val = i.rt.toNat →
        condPasses (instrCondition i s.ctx) s.flags = true → exec i s1 = .next s2 →
        ∃ u, s2.readReg t = cpacrRead s.config s.ctx S u)

/-- Model's choice (log 10): a state with an opcode table word placed where the step fetches runs, at its next step, exactly the
instruction the decoder reads from the word. -/
def Obligations.FetchWordRunsTheTableWord : Prop :=
  ∀ (s : State) (nbits w : Nat) (i : Instr), s.inputs = [] → decodeTableWord nbits w = some i →
    step (s.withFetchWord nbits w) = exec i (s.withFetchWord nbits w)
end

