-- ==== Sys2Proof/Laws/Decode.lean ====
section
/-! SUPPORT. The parts of encoding undo each other: conditions, fields and bytes. -/

namespace Sys2Proof

theorem decodeCond_encodeCond (c : Cond) : decodeCond (encodeCond c) = some c := by
  cases c <;> rfl

theorem decodeCond_eq_some (b : BitVec 4) (c : Cond) : decodeCond b = some c ↔ b = encodeCond c := by
  constructor
  · revert b c
    intro b c
    cases c <;> revert b <;> decide
  · rintro rfl
    exact decodeCond_encodeCond c

theorem decodeCond_eq_none (b : BitVec 4) : decodeCond b = none ↔ b = 15#4 := by
  revert b
  decide

/-- A word is its fields. -/
theorem joinWord_splitWord (w : Word) : joinWord (splitWord w) = w := by
  apply BitVec.eq_of_getLsbD_eq
  intro k hk
  unfold joinWord splitWord
  interval_cases k <;> (simp only [BitVec.getLsbD_append, BitVec.getLsbD_extractLsb']; simp)

/-- The fields of a word built from fields. -/
theorem splitWord_joinWord (f : WordFields) : splitWord (joinWord f) = f := by
  obtain ⟨cond, op, opc1, l, crn, rt, coproc, opc2, one, crm⟩ := f
  unfold joinWord splitWord
  simp only [WordFields.mk.injEq]
  refine ⟨?_, ?_, ?_, ?_, ?_, ?_, ?_, ?_, ?_, ?_⟩ <;> apply BitVec.eq_of_getLsbD_eq <;> intro k hk <;>
    interval_cases k <;> (simp only [BitVec.getLsbD_append, BitVec.getLsbD_extractLsb']; simp)

/-- The four bytes of a word give the word back, in either byte order. -/
theorem wordOfBytes_bytesOfWord (set : InstrSet) (w : Word) :
    ∃ b0 b1 b2 b3, bytesOfWord set w = [b0, b1, b2, b3] ∧ wordOfBytes set b0 b1 b2 b3 = w := by
  cases set <;> refine ⟨_, _, _, _, rfl, ?_⟩ <;> apply BitVec.eq_of_getLsbD_eq <;> intro k hk <;>
    unfold wordOfBytes <;> interval_cases k <;> (simp only [BitVec.getLsbD_append, BitVec.getLsbD_extractLsb']; simp)

/-- Decoding the bytes of a word is decoding the word. -/
theorem decode_bytesOfWord (set : InstrSet) (w : Word) (rest : List Byte) :
    decode set (bytesOfWord set w ++ rest) =
      match decodeWord set w with
      | .ok i => .ok (i, rest)
      | .error r => .error r := by
  obtain ⟨b0, b1, b2, b3, hb, hw⟩ := wordOfBytes_bytesOfWord set w
  rw [hb]
  cases h : decodeWord set w <;> simp [decode, hw, h]

/-- A word has four bytes. -/
theorem bytesOfWord_length (set : InstrSet) (w : Word) : (bytesOfWord set w).length = 4 := by
  cases set <;> rfl

/-- Everything the A32 decoder accepts (30 R54, R57). -/
theorem decodeA32_ok_iff (w : Word) (i : Instr) :
    decodeA32 w = .ok i ↔ ∃ c, decodeCond (splitWord w).cond = some c ∧ (splitWord w).op = 0b1110#4
      ∧ (splitWord w).one = 1#1 ∧ (splitWord w).tuple = cpacrTuple ∧ rtAdmitted .a32 (splitWord w).rt = true
      ∧ i = if (splitWord w).l = 1#1 then .mrcA32 c (splitWord w).rt else .mcrA32 c (splitWord w).rt := by
  unfold decodeA32
  cases hx : decodeCond (splitWord w).cond with
  | none => simp [hx]
  | some c =>
    by_cases h1 : (splitWord w).op = 0b1110#4 <;> by_cases h2 : (splitWord w).one = 1#1 <;>
      by_cases h3 : (splitWord w).tuple = cpacrTuple <;> by_cases h4 : rtAdmitted .a32 (splitWord w).rt = true <;>
      by_cases h5 : (splitWord w).l = 1#1 <;> simp [hx, h1, h2, h3, h4, h5, eq_comm]

/-- Everything the T32 decoder accepts (30 R54, R57). -/
theorem decodeT32_ok_iff (w : Word) (i : Instr) :
    decodeT32 w = .ok i ↔ (splitWord w).cond = 0b1110#4 ∧ (splitWord w).op = 0b1110#4
      ∧ (splitWord w).one = 1#1 ∧ (splitWord w).tuple = cpacrTuple ∧ rtAdmitted .t32 (splitWord w).rt = true
      ∧ i = if (splitWord w).l = 1#1 then .mrcT32 (splitWord w).rt else .mcrT32 (splitWord w).rt := by
  unfold decodeT32
  by_cases h0 : (splitWord w).cond = 0b1110#4 <;> by_cases h1 : (splitWord w).op = 0b1110#4 <;>
    by_cases h2 : (splitWord w).one = 1#1 <;> by_cases h3 : (splitWord w).tuple = cpacrTuple <;>
    by_cases h4 : rtAdmitted .t32 (splitWord w).rt = true <;> by_cases h5 : (splitWord w).l = 1#1 <;>
    simp [h0, h1, h2, h3, h4, h5, eq_comm]

end Sys2Proof
end

