-- ==== Sys2Proof/Laws/Memory.lean ====
section
/-! SUPPORT. The laws of the program memory: read after write, and every operation keeps the canonical form. -/

namespace Sys2Proof.Machine

@[simp] theorem Memory.read_nil (a : Nat) : Memory.read [] a = none := rfl

theorem Memory.read_cons (b : Nat) (v : Byte) (m : Memory) (a : Nat) :
    Memory.read ((b, v) :: m) a = if b = a then some v else Memory.read m a := rfl

theorem Memory.write_cons (b : Nat) (w : Byte) (m : Memory) (a : Nat) (v : Byte) :
    Memory.write ((b, w) :: m) a v =
      if a < b then (a, v) :: (b, w) :: m else if b = a then (a, v) :: m else (b, w) :: Memory.write m a v := rfl

theorem Memory.read_write_same (m : Memory) (a : Nat) (v : Byte) : Memory.read (Memory.write m a v) a = some v := by
  induction m with
  | nil => simp [Memory.write, Memory.read_cons]
  | cons c m ih =>
    obtain ⟨b, w⟩ := c
    rw [Memory.write_cons]
    split
    · simp [Memory.read_cons]
    · split <;> simp_all [Memory.read_cons]

theorem Memory.read_write_ne (m : Memory) (a : Nat) (v : Byte) (x : Nat) (h : x ≠ a) :
    Memory.read (Memory.write m a v) x = Memory.read m x := by
  induction m with
  | nil => simp [Memory.write, Memory.read_cons, Ne.symm h]
  | cons c m ih =>
    obtain ⟨b, w⟩ := c
    rw [Memory.write_cons]
    split
    · simp [Memory.read_cons, Ne.symm h]
    · split
      · simp_all [Memory.read_cons, Ne.symm h]
      · simp [Memory.read_cons, ih]

/-- What a write can add to the list of addresses: its own. -/
theorem Memory.mem_write (m : Memory) (a : Nat) (v : Byte) (c : Host.Cell) (h : c ∈ Memory.write m a v) :
    c = (a, v) ∨ c ∈ m := by
  induction m with
  | nil => simpa [Memory.write] using h
  | cons d m ih =>
    obtain ⟨b, w⟩ := d
    rw [Memory.write_cons] at h
    split at h
    · simpa using h
    · split at h <;> grind

theorem Memory.write_wf (m : Memory) (a : Nat) (v : Byte) (h : Memory.wf m) : Memory.wf (Memory.write m a v) := by
  induction m with
  | nil => simp [Memory.write]
  | cons d m ih =>
    obtain ⟨b, w⟩ := d
    obtain ⟨hb, hm⟩ := List.pairwise_cons.mp h
    rw [Memory.write_cons]
    split
    · rename_i hab
      refine List.pairwise_cons.mpr ⟨fun c hc => ?_, h⟩
      rcases List.mem_cons.mp hc with rfl | hc
      · exact hab
      · exact Nat.lt_trans hab (hb c hc)
    · split
      · rename_i hba
        exact List.pairwise_cons.mpr ⟨fun c hc => hba ▸ hb c hc, hm⟩
      · rename_i hab hba
        refine List.pairwise_cons.mpr ⟨fun c hc => ?_, ih hm⟩
        rcases Memory.mem_write m a v c hc with rfl | hc
        · show b < a
          omega
        · exact hb c hc

theorem Memory.writeBytes_wf (vs : List Byte) (m : Memory) (a : Nat) (h : Memory.wf m) :
    Memory.wf (Memory.writeBytes m a vs) := by
  induction vs generalizing m a with
  | nil => exact h
  | cons v vs ih => exact ih _ _ (Memory.write_wf m a v h)

/-- A run of bytes leaves every address below it alone. -/
theorem Memory.read_writeBytes_below (vs : List Byte) (m : Memory) (a x : Nat) (h : x < a) :
    Memory.read (Memory.writeBytes m a vs) x = Memory.read m x := by
  induction vs generalizing m a with
  | nil => rfl
  | cons v vs ih =>
    show Memory.read (Memory.writeBytes (Memory.write m a v) (a + 1) vs) x = _
    rw [ih _ _ (by omega), Memory.read_write_ne _ _ _ _ (by omega)]

/-- Reading back a run of bytes that was stored. -/
theorem Memory.readBytes_writeBytes (vs : List Byte) (m : Memory) (a : Nat) :
    Memory.readBytes (Memory.writeBytes m a vs) a vs.length = .ok vs := by
  induction vs generalizing m a with
  | nil => rfl
  | cons v vs ih =>
    have hv : Memory.read (Memory.writeBytes (Memory.write m a v) (a + 1) vs) a = some v := by
      rw [Memory.read_writeBytes_below _ _ _ _ (by omega), Memory.read_write_same]
    simp [Memory.readBytes, Memory.writeBytes, hv, ih]

/-- Four bytes that stand at an address are what a fetch there reads. -/
theorem Memory.readBytes_four (m : Memory) (a : Nat) (b0 b1 b2 b3 : Byte) (h0 : Memory.read m a = some b0)
    (h1 : Memory.read m (a + 1) = some b1) (h2 : Memory.read m (a + 2) = some b2)
    (h3 : Memory.read m (a + 3) = some b3) : Memory.readBytes m a 4 = .ok [b0, b1, b2, b3] := by
  simp [Memory.readBytes, h0, h1, h2, h3]

end Sys2Proof.Machine
end

