-- ==== Sys2Proof/Laws/State.lean ====
section
/-! SUPPORT. One lemma per field per update of State, each true by rfl, so that no proof unfolds a record update. -/

namespace Sys2Proof.Machine

section writeReg

variable (s : State) (t : Fin 15) (v : Word)

@[simp] theorem State.writeReg_config : (s.writeReg t v).config = s.config := rfl
@[simp] theorem State.writeReg_cpacr : (s.writeReg t v).cpacr = s.cpacr := rfl
@[simp] theorem State.writeReg_pending : (s.writeReg t v).pending = s.pending := rfl
@[simp] theorem State.writeReg_regs : (s.writeReg t v).regs = s.regs.set t.val v t.isLt := rfl
@[simp] theorem State.writeReg_pc : (s.writeReg t v).pc = s.pc := rfl
@[simp] theorem State.writeReg_flags : (s.writeReg t v).flags = s.flags := rfl
@[simp] theorem State.writeReg_ctx : (s.writeReg t v).ctx = s.ctx := rfl
@[simp] theorem State.writeReg_memory : (s.writeReg t v).memory = s.memory := rfl
@[simp] theorem State.writeReg_inputs : (s.writeReg t v).inputs = s.inputs := rfl
@[simp] theorem State.writeReg_draws : (s.writeReg t v).draws = s.draws := rfl

end writeReg

section advancePc

variable (s : State)

@[simp] theorem State.advancePc_config : (s.advancePc).config = s.config := rfl
@[simp] theorem State.advancePc_cpacr : (s.advancePc).cpacr = s.cpacr := rfl
@[simp] theorem State.advancePc_pending : (s.advancePc).pending = s.pending := rfl
@[simp] theorem State.advancePc_regs : (s.advancePc).regs = s.regs := rfl
@[simp] theorem State.advancePc_pc : (s.advancePc).pc = s.pc + 4 := rfl
@[simp] theorem State.advancePc_flags : (s.advancePc).flags = s.flags := rfl
@[simp] theorem State.advancePc_ctx : (s.advancePc).ctx = s.ctx := rfl
@[simp] theorem State.advancePc_memory : (s.advancePc).memory = s.memory := rfl
@[simp] theorem State.advancePc_inputs : (s.advancePc).inputs = s.inputs := rfl
@[simp] theorem State.advancePc_draws : (s.advancePc).draws = s.draws := rfl

end advancePc

section countDraws

variable (s : State) (n : Nat)

@[simp] theorem State.countDraws_config : (s.countDraws n).config = s.config := rfl
@[simp] theorem State.countDraws_cpacr : (s.countDraws n).cpacr = s.cpacr := rfl
@[simp] theorem State.countDraws_pending : (s.countDraws n).pending = s.pending := rfl
@[simp] theorem State.countDraws_regs : (s.countDraws n).regs = s.regs := rfl
@[simp] theorem State.countDraws_pc : (s.countDraws n).pc = s.pc := rfl
@[simp] theorem State.countDraws_flags : (s.countDraws n).flags = s.flags := rfl
@[simp] theorem State.countDraws_ctx : (s.countDraws n).ctx = s.ctx := rfl
@[simp] theorem State.countDraws_memory : (s.countDraws n).memory = s.memory := rfl
@[simp] theorem State.countDraws_inputs : (s.countDraws n).inputs = s.inputs := rfl
@[simp] theorem State.countDraws_draws : (s.countDraws n).draws = s.draws + n := rfl

end countDraws

section setCpacr

variable (s : State) (S : Cpacr)

@[simp] theorem State.setCpacr_config : (s.setCpacr S).config = s.config := rfl
@[simp] theorem State.setCpacr_cpacr : (s.setCpacr S).cpacr = S := rfl
@[simp] theorem State.setCpacr_pending : (s.setCpacr S).pending = if s.config.syncModel = .untilSync then s.pending ++ [s.cpacr] else s.pending := rfl
@[simp] theorem State.setCpacr_regs : (s.setCpacr S).regs = s.regs := rfl
@[simp] theorem State.setCpacr_pc : (s.setCpacr S).pc = s.pc := rfl
@[simp] theorem State.setCpacr_flags : (s.setCpacr S).flags = s.flags := rfl
@[simp] theorem State.setCpacr_ctx : (s.setCpacr S).ctx = s.ctx := rfl
@[simp] theorem State.setCpacr_memory : (s.setCpacr S).memory = s.memory := rfl
@[simp] theorem State.setCpacr_inputs : (s.setCpacr S).inputs = s.inputs := rfl
@[simp] theorem State.setCpacr_draws : (s.setCpacr S).draws = s.draws := rfl

end setCpacr

section synchronise

variable (s : State)

@[simp] theorem State.synchronise_config : (s.synchronise).config = s.config := rfl
@[simp] theorem State.synchronise_cpacr : (s.synchronise).cpacr = s.cpacr := rfl
@[simp] theorem State.synchronise_pending : (s.synchronise).pending = [] := rfl
@[simp] theorem State.synchronise_regs : (s.synchronise).regs = s.regs := rfl
@[simp] theorem State.synchronise_pc : (s.synchronise).pc = s.pc := rfl
@[simp] theorem State.synchronise_flags : (s.synchronise).flags = s.flags := rfl
@[simp] theorem State.synchronise_ctx : (s.synchronise).ctx = s.ctx := rfl
@[simp] theorem State.synchronise_memory : (s.synchronise).memory = s.memory := rfl
@[simp] theorem State.synchronise_inputs : (s.synchronise).inputs = s.inputs := rfl
@[simp] theorem State.synchronise_draws : (s.synchronise).draws = s.draws := rfl

end synchronise

section setPe

variable (s : State) (p : Pe)

@[simp] theorem State.setPe_config : (s.setPe p).config = s.config := rfl
@[simp] theorem State.setPe_cpacr : (s.setPe p).cpacr = s.cpacr := rfl
@[simp] theorem State.setPe_pending : (s.setPe p).pending = s.pending := rfl
@[simp] theorem State.setPe_regs : (s.setPe p).regs = p.regs := rfl
@[simp] theorem State.setPe_pc : (s.setPe p).pc = p.pc := rfl
@[simp] theorem State.setPe_flags : (s.setPe p).flags = p.flags := rfl
@[simp] theorem State.setPe_ctx : (s.setPe p).ctx = p.ctx := rfl
@[simp] theorem State.setPe_memory : (s.setPe p).memory = s.memory := rfl
@[simp] theorem State.setPe_inputs : (s.setPe p).inputs = s.inputs := rfl
@[simp] theorem State.setPe_draws : (s.setPe p).draws = s.draws := rfl

end setPe

section warmReset

variable (s : State) (p : Pe)

@[simp] theorem State.warmReset_config : (s.warmReset p).config = s.config := rfl
@[simp] theorem State.warmReset_cpacr : (s.warmReset p).cpacr = Cpacr.reset := rfl
@[simp] theorem State.warmReset_pending : (s.warmReset p).pending = [] := rfl
@[simp] theorem State.warmReset_regs : (s.warmReset p).regs = p.regs := rfl
@[simp] theorem State.warmReset_pc : (s.warmReset p).pc = p.pc := rfl
@[simp] theorem State.warmReset_flags : (s.warmReset p).flags = p.flags := rfl
@[simp] theorem State.warmReset_ctx : (s.warmReset p).ctx = p.ctx := rfl
@[simp] theorem State.warmReset_memory : (s.warmReset p).memory = s.memory := rfl
@[simp] theorem State.warmReset_inputs : (s.warmReset p).inputs = s.inputs := rfl
@[simp] theorem State.warmReset_draws : (s.warmReset p).draws = s.draws := rfl

end warmReset

section readCpacrInto

variable (s : State) (t : Fin 15)

@[simp] theorem State.readCpacrInto_config : (s.readCpacrInto t).config = s.config := rfl
@[simp] theorem State.readCpacrInto_cpacr : (s.readCpacrInto t).cpacr = s.cpacr := rfl
@[simp] theorem State.readCpacrInto_pending : (s.readCpacrInto t).pending = s.pending := rfl
@[simp] theorem State.readCpacrInto_regs : (s.readCpacrInto t).regs = s.regs.set t.val (cpacrRead s.config s.ctx s.cpacr s.readDraws) t.isLt := rfl
@[simp] theorem State.readCpacrInto_pc : (s.readCpacrInto t).pc = s.pc + 4 := rfl
@[simp] theorem State.readCpacrInto_flags : (s.readCpacrInto t).flags = s.flags := rfl
@[simp] theorem State.readCpacrInto_ctx : (s.readCpacrInto t).ctx = s.ctx := rfl
@[simp] theorem State.readCpacrInto_memory : (s.readCpacrInto t).memory = s.memory := rfl
@[simp] theorem State.readCpacrInto_inputs : (s.readCpacrInto t).inputs = s.inputs := rfl
@[simp] theorem State.readCpacrInto_draws : (s.readCpacrInto t).draws = s.draws + readDrawCount := rfl

end readCpacrInto

section writeCpacrFrom

variable (s : State) (v : Word)

@[simp] theorem State.writeCpacrFrom_config : (s.writeCpacrFrom v).config = s.config := rfl
@[simp] theorem State.writeCpacrFrom_cpacr : (s.writeCpacrFrom v).cpacr = cpacrWrite s.config s.ctx s.cpacr v := rfl
@[simp] theorem State.writeCpacrFrom_pending : (s.writeCpacrFrom v).pending = if s.config.syncModel = .untilSync then s.pending ++ [s.cpacr] else s.pending := rfl
@[simp] theorem State.writeCpacrFrom_regs : (s.writeCpacrFrom v).regs = s.regs := rfl
@[simp] theorem State.writeCpacrFrom_pc : (s.writeCpacrFrom v).pc = s.pc + 4 := rfl
@[simp] theorem State.writeCpacrFrom_flags : (s.writeCpacrFrom v).flags = s.flags := rfl
@[simp] theorem State.writeCpacrFrom_ctx : (s.writeCpacrFrom v).ctx = s.ctx := rfl
@[simp] theorem State.writeCpacrFrom_memory : (s.writeCpacrFrom v).memory = s.memory := rfl
@[simp] theorem State.writeCpacrFrom_inputs : (s.writeCpacrFrom v).inputs = s.inputs := rfl
@[simp] theorem State.writeCpacrFrom_draws : (s.writeCpacrFrom v).draws = s.draws := rfl

end writeCpacrFrom

section withFetchWord

variable (s : State) (nbits w : Nat)

@[simp] theorem State.withFetchWord_config : (s.withFetchWord nbits w).config = s.config := rfl
@[simp] theorem State.withFetchWord_cpacr : (s.withFetchWord nbits w).cpacr = s.cpacr := rfl
@[simp] theorem State.withFetchWord_pending : (s.withFetchWord nbits w).pending = s.pending := rfl
@[simp] theorem State.withFetchWord_regs : (s.withFetchWord nbits w).regs = s.regs := rfl
@[simp] theorem State.withFetchWord_pc : (s.withFetchWord nbits w).pc = s.pc := rfl
@[simp] theorem State.withFetchWord_flags : (s.withFetchWord nbits w).flags = s.flags := rfl
@[simp] theorem State.withFetchWord_ctx :
    (s.withFetchWord nbits w).ctx = { s.ctx with iset := tableSet (tableWord nbits w) } := rfl
@[simp] theorem State.withFetchWord_memory : (s.withFetchWord nbits w).memory =
    Memory.writeBytes s.memory s.pc (bytesOfWord (tableSet (tableWord nbits w)) (tableWord nbits w)) := rfl
@[simp] theorem State.withFetchWord_draws : (s.withFetchWord nbits w).draws = s.draws := rfl

end withFetchWord

@[simp] theorem State.readReg_writeReg (s : State) (t : Fin 15) (v : Word) : (s.writeReg t v).readReg t = v := by
  simp [State.readReg]

theorem State.readReg_writeReg_ne (s : State) (t r : Fin 15) (v : Word) (h : r ≠ t) :
    (s.writeReg t v).readReg r = s.readReg r := by
  have hv : t.val ≠ r.val := fun e => h (Fin.ext e.symm)
  simp [State.readReg, hv]

@[simp] theorem State.readReg_readCpacrInto (s : State) (t : Fin 15) :
    (s.readCpacrInto t).readReg t = cpacrRead s.config s.ctx s.cpacr s.readDraws := by
  simp [State.readReg]

theorem State.readReg_readCpacrInto_ne (s : State) (t r : Fin 15) (h : r ≠ t) :
    (s.readCpacrInto t).readReg r = s.readReg r := by
  have hv : t.val ≠ r.val := fun e => h (Fin.ext e.symm)
  simp [State.readReg, hv]

@[simp] theorem State.readReg_writeCpacrFrom (s : State) (v : Word) (r : Fin 15) :
    (s.writeCpacrFrom v).readReg r = s.readReg r := rfl

end Sys2Proof.Machine
end

