-- ==== Sys2Proof/Laws/Views.lean ====
section
/-! SUPPORT. The fields of a direct read (10 R28) and the overrides of 10 R13, each said once. -/

namespace Sys2Proof.Machine

/-- The places of the fields, as the layout table has them (10 R11). -/
@[simp] theorem CpacrField.lsb_asedis : CpacrField.asedis.lsb = 31 := rfl
@[simp] theorem CpacrField.lsb_res30 : CpacrField.res30.lsb = 29 := rfl
@[simp] theorem CpacrField.lsb_trcdis : CpacrField.trcdis.lsb = 28 := rfl
@[simp] theorem CpacrField.lsb_res27 : CpacrField.res27.lsb = 24 := rfl
@[simp] theorem CpacrField.lsb_cp11 : CpacrField.cp11.lsb = 22 := rfl
@[simp] theorem CpacrField.lsb_cp10 : CpacrField.cp10.lsb = 20 := rfl
@[simp] theorem CpacrField.lsb_res19 : CpacrField.res19.lsb = 0 := rfl

/-- A bit is in a field's mask exactly when it is one of the field's bits. -/
theorem CpacrField.mask_getLsbD (f : CpacrField) (k : Nat) :
    f.mask.getLsbD k = decide (f.lsb ≤ k ∧ k < f.lsb + f.width) := by
  by_cases h : k < 32
  · cases f <;> (revert h; revert k; decide)
  · rw [BitVec.getLsbD_of_ge _ k (by omega)]
    symm
    rw [decide_eq_false_iff_not]
    cases f <;> simp only [CpacrField.lsb, CpacrField.width] <;> omega

theorem alwaysReserved_eq : alwaysReserved = 0x6F0FFFFF#32 := by decide

theorem namedFields_eq : namedFields = 0x90F00000#32 := by decide

/-- The bits refused in a written value, as literals (10 R17). -/
theorem refusedOnes_eq (cfg : Config) :
    refusedOnes cfg =
      (if cfg.res0Readback then 0#32 else 0x6F0FFFFF#32)
        ||| (if cfg.haveFPASIMD then 0#32 else 0x80F00000#32)
        ||| (if cfg.haveTraceSysRegs then 0#32 else 0x10000000#32) := by
  unfold refusedOnes
  cases cfg.res0Readback <;> cases cfg.haveFPASIMD <;> cases cfg.haveTraceSysRegs <;> decide

theorem nsView_iff (cfg : Config) (ctx : Context) : nsView cfg ctx = true ↔ NonSecureView cfg ctx := by
  simp [nsView, and_assoc]

theorem nsFpRazwi_iff (cfg : Config) (ctx : Context) :
    nsFpRazwi cfg ctx = true ↔ NonSecureView cfg ctx ∧ ctx.nsacrCp10 = false := by
  simp [nsFpRazwi, nsView_iff]

theorem nsAsedisRaowi_iff (cfg : Config) (ctx : Context) :
    nsAsedisRaowi cfg ctx = true ↔ NonSecureView cfg ctx ∧ ctx.nsacrNsasedis = true := by
  simp [nsAsedisRaowi, nsView_iff]

theorem nsTrcdisRaowi_iff (cfg : Config) (ctx : Context) :
    nsTrcdisRaowi cfg ctx = true ↔ NonSecureView cfg ctx ∧ ctx.nsacrNstrcdis = true := by
  simp [nsTrcdisRaowi, nsView_iff]

/-- Where NSACR overrides nothing, none of the three conditions holds. -/
theorem NoOverride.conditions {cfg : Config} {ctx : Context} (h : NoOverride cfg ctx) :
    nsFpRazwi cfg ctx = false ∧ nsAsedisRaowi cfg ctx = false ∧ nsTrcdisRaowi cfg ctx = false := by
  refine ⟨?_, ?_, ?_⟩ <;> rw [Bool.eq_false_iff] <;> intro hc
  · obtain ⟨hv, hn⟩ := (nsFpRazwi_iff cfg ctx).mp hc
    simp [(h hv).1] at hn
  · obtain ⟨hv, hn⟩ := (nsAsedisRaowi_iff cfg ctx).mp hc
    simp [(h hv).2.1] at hn
  · obtain ⟨hv, hn⟩ := (nsTrcdisRaowi_iff cfg ctx).mp hc
    simp [(h hv).2.2] at hn

/-- The bit of a concatenation: which part it is in. -/
theorem cpacrRead_getLsbD (cfg : Config) (ctx : Context) (S : Cpacr) (u : ReadDraws) (k : Nat) :
    (cpacrRead cfg ctx S u).getLsbD k =
      if k < 20 then (readRes0 cfg S).getLsbD k
      else if k < 22 then (effCp10 cfg ctx S).getLsbD (k - 20)
      else if k < 24 then (readCp11 cfg ctx S u).getLsbD (k - 22)
      else if k < 28 then (readRes0 cfg S).getLsbD k
      else if k < 29 then readTrcdis cfg ctx S u
      else if k < 31 then (readRes0 cfg S).getLsbD k
      else if k < 32 then readAsedis cfg ctx S u
      else false := by
  unfold cpacrRead
  by_cases h : k < 32
  · interval_cases k <;> (simp only [BitVec.getLsbD_append, BitVec.getLsbD_extractLsb']; simp)
  · rw [BitVec.getLsbD_of_ge _ k (by omega)]
    simp [show ¬ k < 20 by omega, show ¬ k < 22 by omega, show ¬ k < 24 by omega, show ¬ k < 28 by omega,
      show ¬ k < 29 by omega, show ¬ k < 31 by omega, h]

/-- Bit 31 of a direct read. -/
theorem cpacrRead_asedis (cfg : Config) (ctx : Context) (S : Cpacr) (u : ReadDraws) :
    (cpacrRead cfg ctx S u).getLsbD 31 = readAsedis cfg ctx S u := by
  simp only [cpacrRead_getLsbD]; simp

/-- Bit 28 of a direct read. -/
theorem cpacrRead_trcdis (cfg : Config) (ctx : Context) (S : Cpacr) (u : ReadDraws) :
    (cpacrRead cfg ctx S u).getLsbD 28 = readTrcdis cfg ctx S u := by
  simp only [cpacrRead_getLsbD]; simp

/-- Bits 23:22 of a direct read. -/
theorem cpacrRead_cp11 (cfg : Config) (ctx : Context) (S : Cpacr) (u : ReadDraws) :
    (cpacrRead cfg ctx S u).extractLsb' 22 2 = readCp11 cfg ctx S u := by
  apply BitVec.eq_of_getLsbD_eq
  intro k hk
  interval_cases k <;> (simp only [BitVec.getLsbD_extractLsb', cpacrRead_getLsbD]; simp)

/-- Bits 21:20 of a direct read. -/
theorem cpacrRead_cp10 (cfg : Config) (ctx : Context) (S : Cpacr) (u : ReadDraws) :
    (cpacrRead cfg ctx S u).extractLsb' 20 2 = effCp10 cfg ctx S := by
  apply BitVec.eq_of_getLsbD_eq
  intro k hk
  interval_cases k <;> (simp only [BitVec.getLsbD_extractLsb', cpacrRead_getLsbD]; simp)

/-- A write keeps the reserved bits' storage as the implementation can hold it (10 R12, R17). -/
theorem StorageHeld.cpacrWrite {cfg : Config} {S : Cpacr} (ctx : Context) (v : Word) (h : StorageHeld cfg S) :
    StorageHeld cfg (Machine.cpacrWrite cfg ctx S v) := by
  show ((if cfg.res0Readback then v &&& alwaysReserved else S.res0) &&& ~~~0x6F0FFFFF#32 = 0#32) ∧ (_ → _ = 0#32)
  obtain ⟨h1, h2⟩ := h
  refine ⟨?_, fun hr => ?_⟩
  · split
    · rw [alwaysReserved_eq, BitVec.and_assoc]
      simp
    · exact h1
  · simp [Machine.cpacrWrite, hr, h2]

/-- What `cpacrHeld` gives, the implementation can hold (10 R12). -/
theorem storageHeld_cpacrHeld (cfg : Config) (S : Cpacr) : StorageHeld cfg (cpacrHeld cfg S) := by
  show ((if cfg.res0Readback then S.res0 &&& alwaysReserved else 0#32) &&& ~~~0x6F0FFFFF#32 = 0#32) ∧ (_ → _ = 0#32)
  refine ⟨?_, fun hr => ?_⟩
  · split
    · rw [alwaysReserved_eq, BitVec.and_assoc]
      simp
    · simp
  · simp [cpacrHeld, hr]

/-- A direct read sees no difference between a storage and what the implementation can hold of it. -/
theorem cpacrRead_cpacrHeld (cfg : Config) (ctx : Context) (S : Cpacr) (u : ReadDraws) :
    cpacrRead cfg ctx (cpacrHeld cfg S) u = cpacrRead cfg ctx S u := by
  have h : ∀ k, (alwaysReserved).getLsbD k = true →
      (readRes0 cfg (cpacrHeld cfg S)).getLsbD k = (readRes0 cfg S).getLsbD k := by
    intro k hk
    cases hr : cfg.res0Readback <;> simp [readRes0, cpacrHeld, hr, hk]
  apply BitVec.eq_of_getLsbD_eq
  intro k hk
  simp only [cpacrRead_getLsbD]
  interval_cases k <;> first | exact h _ (by decide) | rfl

end Sys2Proof.Machine
end

