-- ==== Sys2Proof/Laws/Ops.lean ====
section
/-! SUPPORT. For each shared operation, one lemma that says everything it can do: what it answers, and when. -/

namespace Sys2Proof.Machine

/-- `R[t]` is the register whose number is the `Rt` field, where the encoding admits it. -/
theorem regIndex_eq_some (set : InstrSet) (rt : BitVec 4) (t : Fin 15) :
    regIndex set rt = some t ↔ rtAdmitted set rt = true ∧ t.val = rt.toNat := by
  constructor
  · intro h
    unfold regIndex at h
    split at h
    · split at h
      · rename_i ha
        cases h
        exact ⟨ha, rfl⟩
      · cases h
    · cases h
  · rintro ⟨ha, ht⟩
    have hlt : rt.toNat < 15 := ht ▸ t.isLt
    simp [regIndex, ha, ← ht]

/-- The registers the spec does not admit have no index. -/
theorem regIndex_eq_none (set : InstrSet) (rt : BitVec 4) : regIndex set rt = none ↔ rtAdmitted set rt = false := by
  revert set rt
  have h32 : ∀ rt : BitVec 4, regIndex .a32 rt = none ↔ rtAdmitted .a32 rt = false := by decide
  have h16 : ∀ rt : BitVec 4, regIndex .t32 rt = none ↔ rtAdmitted .t32 rt = false := by decide
  intro set rt
  cases set
  · exact h32 rt
  · exact h16 rt

/-- A well-formed instruction names a register. -/
theorem wf_regIndex (i : Instr) (h : i.wf = true) : ∃ t, regIndex i.set i.rt = some t ∧ t.val = i.rt.toNat := by
  cases hr : regIndex i.set i.rt with
  | none => exact absurd ((regIndex_eq_none _ _).mp hr) (by simpa [Instr.wf] using h)
  | some t => exact ⟨t, rfl, ((regIndex_eq_some _ _ _).mp hr).2⟩

/-- The conjunctions of 40 R62, as the conditions claims are stated in. -/
theorem el3Tcpac_iff (cfg : Config) (ctx : Context) : el3Tcpac cfg ctx = true ↔ El3ControlsAccess cfg ctx := by
  simp [el3Tcpac, and_assoc]

theorem el2AArch64_iff (cfg : Config) (ctx : Context) :
    (h64T1 cfg ctx || h64Tcpac cfg ctx) = true ↔ El2AArch64TrapsAccess cfg ctx := by
  simp only [h64T1, h64Tcpac, ← Bool.and_or_distrib_left]
  simp [and_assoc]

theorem el2AArch32_iff (cfg : Config) (ctx : Context) :
    (h32T1 cfg ctx || h32Tcpac cfg ctx) = true ↔ El2AArch32TrapsAccess cfg ctx := by
  simp only [h32T1, h32Tcpac, ← Bool.and_or_distrib_left]
  simp [and_assoc]

/-- The EL1 block, once its order among the EL2 controls is seen to be unobservable (40 R62, first consequence). -/
theorem accessCheckEL1_eq (cfg : Config) (ctx : Context) :
    accessCheckEL1 cfg ctx =
      if El3ControlsAccess cfg ctx ∧ ctx.el3SDDUndefPriority = true then .take .undefined
      else if El2AArch64TrapsAccess cfg ctx then .take (.sysAccessTrap .el2)
      else if El2AArch32TrapsAccess cfg ctx then .take .hypTrap
      else if El3ControlsAccess cfg ctx then
        if ctx.el3SDDUndef = true then .take .undefined else .take (.sysAccessTrap .el3)
      else .allow := by
  have hx : (h64T1 cfg ctx || h64Tcpac cfg ctx) = true → h32T1 cfg ctx = false ∧ h32Tcpac cfg ctx = false := by
    intro h
    have h2 := ((el2AArch64_iff cfg ctx).mp h).2.2.1
    simp [h32T1, h32Tcpac, h2]
  simp only [← el3Tcpac_iff, ← el2AArch64_iff, ← el2AArch32_iff]
  unfold accessCheckEL1
  revert hx
  cases el3Tcpac cfg ctx <;> cases h64T1 cfg ctx <;> cases h32T1 cfg ctx <;> cases h64Tcpac cfg ctx <;>
    cases h32Tcpac cfg ctx <;> cases ctx.el3SDDUndefPriority <;> simp

/-- The EL2 block (40 R62, rows 11 to 14). -/
theorem accessCheckEL2_eq (cfg : Config) (ctx : Context) :
    accessCheckEL2 cfg ctx =
      if El3ControlsAccess cfg ctx then
        if ctx.el3SDDUndefPriority = true ∨ ctx.el3SDDUndef = true then .take .undefined
        else .take (.sysAccessTrap .el3)
      else .allow := by
  simp only [← el3Tcpac_iff]
  unfold accessCheckEL2
  cases el3Tcpac cfg ctx <;> cases ctx.el3SDDUndefPriority <;> simp

/-- `Check(ctx)` by Exception level (40 R62). -/
theorem accessCheck_eq (cfg : Config) (ctx : Context) :
    accessCheck cfg ctx =
      if cfg.featAA32EL1 = true then
        match ctx.el with
        | .el0 => .take .undefined
        | .el1 => accessCheckEL1 cfg ctx
        | .el2 => accessCheckEL2 cfg ctx
        | .el3 => .allow
      else .take .undefined := by
  unfold accessCheck
  cases cfg.featAA32EL1 <;> rfl

/-- The EL1 block allows exactly where no control traps (40 R62, row 10). -/
theorem accessCheckEL1_allow_iff (cfg : Config) (ctx : Context) :
    accessCheckEL1 cfg ctx = .allow ↔
      ¬ El3ControlsAccess cfg ctx ∧ ¬ El2AArch64TrapsAccess cfg ctx ∧ ¬ El2AArch32TrapsAccess cfg ctx := by
  rw [accessCheckEL1_eq]
  constructor
  · intro h
    split at h
    · cases h
    · split at h
      · cases h
      · rename_i h64
        split at h
        · cases h
        · rename_i h32
          split at h
          · split at h <;> cases h
          · rename_i h3
            exact ⟨h3, h64, h32⟩
  · rintro ⟨h3, h64, h32⟩
    rw [if_neg (fun h => h3 h.1), if_neg h64, if_neg h32, if_neg h3]

/-- The EL2 block allows exactly where the EL3 control does not apply (40 R62, row 14). -/
theorem accessCheckEL2_allow_iff (cfg : Config) (ctx : Context) :
    accessCheckEL2 cfg ctx = .allow ↔ ¬ El3ControlsAccess cfg ctx := by
  rw [accessCheckEL2_eq]
  constructor
  · intro h
    split at h
    · split at h <;> cases h
    · assumption
  · intro h3
    rw [if_neg h3]

/-- The rows of 40 R62 whose result is `Allow`. -/
theorem accessCheck_allow_iff (cfg : Config) (ctx : Context) :
    accessCheck cfg ctx = .allow ↔ AccessAllowed cfg ctx := by
  rw [accessCheck_eq]
  split
  · rename_i hf
    cases hel : ctx.el
    · simp [AccessAllowed, hel]
    · simp only [accessCheckEL1_allow_iff, AccessAllowed, hf, hel, reduceCtorEq, false_and, true_and, false_or]
    · simp only [accessCheckEL2_allow_iff, AccessAllowed, hf, hel, reduceCtorEq, false_and, true_and, false_or, or_false]
    · simp [AccessAllowed, hf, hel]
  · rename_i hf
    simp [AccessAllowed, hf]

/-- The exceptions the EL1 block can take (40 R62, rows 3 to 9). -/
theorem accessCheckEL1_take (cfg : Config) (ctx : Context) (e : ExceptionKind) (h : accessCheckEL1 cfg ctx = .take e) :
    e = .undefined
      ∨ (e = .hypTrap ∧ El2AArch32TrapsAccess cfg ctx)
      ∨ (e = .sysAccessTrap .el2 ∧ El2AArch64TrapsAccess cfg ctx)
      ∨ (e = .sysAccessTrap .el3 ∧ ¬ El2AArch64TrapsAccess cfg ctx ∧ ¬ El2AArch32TrapsAccess cfg ctx
        ∧ El3ControlsAccess cfg ctx ∧ ctx.el3SDDUndef = false) := by
  rw [accessCheckEL1_eq] at h
  split at h
  · exact .inl (AccessResult.take.inj h).symm
  · split at h
    · rename_i h64
      exact .inr (.inr (.inl ⟨(AccessResult.take.inj h).symm, h64⟩))
    · rename_i h64
      split at h
      · rename_i h32
        exact .inr (.inl ⟨(AccessResult.take.inj h).symm, h32⟩)
      · rename_i h32
        split at h
        · rename_i h3
          split at h
          · exact .inl (AccessResult.take.inj h).symm
          · rename_i hd
            exact .inr (.inr (.inr ⟨(AccessResult.take.inj h).symm, h64, h32, h3, by simpa using hd⟩))
        · cases h

/-- The exceptions the EL2 block can take (40 R62, rows 11 to 13). -/
theorem accessCheckEL2_take (cfg : Config) (ctx : Context) (e : ExceptionKind) (h : accessCheckEL2 cfg ctx = .take e) :
    e = .undefined ∨ (e = .sysAccessTrap .el3 ∧ El3ControlsAccess cfg ctx ∧ ctx.el3SDDUndef = false) := by
  rw [accessCheckEL2_eq] at h
  split at h
  · rename_i h3
    split at h
    · exact .inl (AccessResult.take.inj h).symm
    · rename_i hd
      exact .inr ⟨(AccessResult.take.inj h).symm, h3, by simpa using (not_or.mp hd).2⟩
  · cases h

/-- The exceptions `Check` can take (40 R62). -/
theorem accessCheck_take (cfg : Config) (ctx : Context) (e : ExceptionKind) (h : accessCheck cfg ctx = .take e) :
    ¬ AccessAllowed cfg ctx
      ∧ (e = .undefined
        ∨ (e = .hypTrap ∧ ctx.el = .el1 ∧ El2AArch32TrapsAccess cfg ctx)
        ∨ (e = .sysAccessTrap .el2 ∧ ctx.el = .el1 ∧ El2AArch64TrapsAccess cfg ctx)
        ∨ (e = .sysAccessTrap .el3 ∧ (ctx.el = .el2 ∨ ctx.el = .el1 ∧ ¬ El2AArch64TrapsAccess cfg ctx
          ∧ ¬ El2AArch32TrapsAccess cfg ctx) ∧ El3ControlsAccess cfg ctx ∧ ctx.el3SDDUndef = false)) := by
  constructor
  · intro ha
    rw [(accessCheck_allow_iff cfg ctx).mpr ha] at h
    cases h
  · rw [accessCheck_eq] at h
    split at h
    · split at h
      · exact .inl (AccessResult.take.inj h).symm
      · rename_i hel
        obtain he | ⟨he, h32⟩ | ⟨he, h64⟩ | ⟨he, h64, h32, h3, hd⟩ := accessCheckEL1_take cfg ctx e h
        · exact .inl he
        · exact .inr (.inl ⟨he, hel, h32⟩)
        · exact .inr (.inr (.inl ⟨he, hel, h64⟩))
        · exact .inr (.inr (.inr ⟨he, .inr ⟨hel, h64, h32⟩, h3, hd⟩))
      · rename_i hel
        obtain he | ⟨he, h3, hd⟩ := accessCheckEL2_take cfg ctx e h
        · exact .inl he
        · exact .inr (.inr (.inr ⟨he, .inl hel, h3, hd⟩))
      · cases h
    · exact .inl (AccessResult.take.inj h).symm

/-- Taking an exception is always a fault (60 R104). -/
theorem takeException_fault (e : ExceptionKind) (c : Cause) : ∃ f, takeException e c = .fault f := by
  cases e <;> exact ⟨_, rfl⟩

theorem takeException_ne_next (e : ExceptionKind) (c : Cause) (s : State) : takeException e c ≠ .next s := by
  obtain ⟨f, hf⟩ := takeException_fault e c
  simp [hf]

theorem takeException_ne_refused (e : ExceptionKind) (c : Cause) (r : Refusal) : takeException e c ≠ .refused r := by
  obtain ⟨f, hf⟩ := takeException_fault e c
  simp [hf]

/-- The value a write may have is the value with no 1 in a RES0 bit (10 R17). -/
theorem refusedOnes_eq_zero_iff (cfg : Config) (v : Word) :
    v &&& refusedOnes cfg = 0#32 ↔ WritesNoRes0 cfg v := by
  have hor : ∀ a b : Word, v &&& (a ||| b) = 0#32 ↔ v &&& a = 0#32 ∧ v &&& b = 0#32 := by
    intro a b
    rw [BitVec.and_or_distrib_left]
    constructor
    · intro h
      exact BitVec.or_eq_zero_iff.mp h
    · intro h
      exact BitVec.or_eq_zero_iff.mpr h
  rw [refusedOnes_eq, hor, hor]
  unfold WritesNoRes0
  cases cfg.res0Readback <;> cases cfg.haveFPASIMD <;> cases cfg.haveTraceSysRegs <;> simp [and_assoc]

/-- MRC with an admitted register, its condition passed and the access allowed. -/
theorem moveFromCpacr_allowed (i : Instr) (c : Cond) (s : State) (t : Fin 15) (hr : regIndex i.set i.rt = some t)
    (hc : condPasses c s.flags = true) (ha : AccessAllowed s.config s.ctx) :
    moveFromCpacr i c s = .next (s.readCpacrInto t) := by
  simp [moveFromCpacr, withRegister, underCondition, checked, hr, hc, (accessCheck_allow_iff _ _).mpr ha]

/-- MCR with an admitted register, its condition passed and the access allowed. -/
theorem moveToCpacr_allowed (i : Instr) (c : Cond) (s : State) (t : Fin 15) (hr : regIndex i.set i.rt = some t)
    (hc : condPasses c s.flags = true) (ha : AccessAllowed s.config s.ctx) :
    moveToCpacr i c s = writeCpacr s (s.readReg t) := by
  simp [moveToCpacr, withRegister, underCondition, checked, hr, hc, (accessCheck_allow_iff _ _).mpr ha]

/-- The write of a value with no 1 in a RES0 bit. -/
theorem writeCpacr_of_writesNoRes0 (s : State) (v : Word) (h : WritesNoRes0 s.config v) :
    writeCpacr s v = .next (s.writeCpacrFrom v) := by
  simp [writeCpacr, (refusedOnes_eq_zero_iff _ _).mpr h]

/-- Everything MRC can answer a next state with. -/
theorem moveFromCpacr_next (i : Instr) (c : Cond) (s s' : State) (h : moveFromCpacr i c s = .next s') :
    ∃ t, regIndex i.set i.rt = some t
      ∧ ((condPasses c s.flags = false ∧ s' = s.advancePc)
        ∨ (condPasses c s.flags = true ∧ AccessAllowed s.config s.ctx ∧ s' = s.readCpacrInto t)) := by
  simp only [moveFromCpacr, withRegister, underCondition, checked] at h
  split at h
  · rename_i t ht
    refine ⟨t, ht, ?_⟩
    split at h
    · rename_i hc
      split at h
      · rename_i ha
        cases h
        exact .inr ⟨hc, (accessCheck_allow_iff _ _).mp ha, rfl⟩
      · exact absurd h (takeException_ne_next _ _ _)
    · rename_i hc
      cases h
      exact .inl ⟨by simpa using hc, rfl⟩
  · cases h

/-- Everything MCR can answer a next state with. -/
theorem moveToCpacr_next (i : Instr) (c : Cond) (s s' : State) (h : moveToCpacr i c s = .next s') :
    ∃ t, regIndex i.set i.rt = some t
      ∧ ((condPasses c s.flags = false ∧ s' = s.advancePc)
        ∨ (condPasses c s.flags = true ∧ AccessAllowed s.config s.ctx ∧ WritesNoRes0 s.config (s.readReg t)
          ∧ s' = s.writeCpacrFrom (s.readReg t))) := by
  simp only [moveToCpacr, withRegister, underCondition, checked, writeCpacr] at h
  split at h
  · rename_i t ht
    refine ⟨t, ht, ?_⟩
    split at h
    · rename_i hc
      split at h
      · rename_i ha
        split at h
        · rename_i hv
          cases h
          exact .inr ⟨hc, (accessCheck_allow_iff _ _).mp ha, (refusedOnes_eq_zero_iff _ _).mp hv, rfl⟩
        · cases h
      · exact absurd h (takeException_ne_next _ _ _)
    · rename_i hc
      cases h
      exact .inl ⟨by simpa using hc, rfl⟩
  · cases h

/-- Every fault MRC can answer with: the exception `Check` takes. -/
theorem moveFromCpacr_fault (i : Instr) (c : Cond) (s : State) (f : Fault) (h : moveFromCpacr i c s = .fault f) :
    condPasses c s.flags = true ∧ ∃ e, accessCheck s.config s.ctx = .take e ∧ takeException e (.instr i) = .fault f := by
  simp only [moveFromCpacr, withRegister, underCondition, checked] at h
  split at h
  · split at h
    · rename_i hc
      split at h
      · cases h
      · rename_i e he
        exact ⟨hc, e, he, h⟩
    · cases h
  · cases h

/-- Every fault MCR can answer with: the exception `Check` takes. -/
theorem moveToCpacr_fault (i : Instr) (c : Cond) (s : State) (f : Fault) (h : moveToCpacr i c s = .fault f) :
    condPasses c s.flags = true ∧ ∃ e, accessCheck s.config s.ctx = .take e ∧ takeException e (.instr i) = .fault f := by
  simp only [moveToCpacr, withRegister, underCondition, checked, writeCpacr] at h
  split at h
  · split at h
    · rename_i hc
      split at h
      · split at h <;> cases h
      · rename_i e he
        exact ⟨hc, e, he, h⟩
    · cases h
  · cases h

/-- Either instruction, where `Check` takes an exception. -/
theorem moveFromCpacr_take (i : Instr) (c : Cond) (s : State) (t : Fin 15) (e : ExceptionKind)
    (hr : regIndex i.set i.rt = some t) (hc : condPasses c s.flags = true) (he : accessCheck s.config s.ctx = .take e) :
    moveFromCpacr i c s = takeException e (.instr i) := by
  simp [moveFromCpacr, withRegister, underCondition, checked, hr, hc, he]

theorem moveToCpacr_take (i : Instr) (c : Cond) (s : State) (t : Fin 15) (e : ExceptionKind)
    (hr : regIndex i.set i.rt = some t) (hc : condPasses c s.flags = true) (he : accessCheck s.config s.ctx = .take e) :
    moveToCpacr i c s = takeException e (.instr i) := by
  simp [moveToCpacr, withRegister, underCondition, checked, hr, hc, he]

/-- Each instruction is MRC or MCR under its condition. -/
theorem exec_eq (i : Instr) (s : State) :
    exec i s = match i.direction with
      | .read => moveFromCpacr i (instrCondition i s.ctx) s
      | .write => moveToCpacr i (instrCondition i s.ctx) s := by
  cases i <;> rfl

/-- Everything an instruction can answer a next state with. -/
theorem exec_next (i : Instr) (s s' : State) (h : exec i s = .next s') :
    ∃ t, regIndex i.set i.rt = some t
      ∧ ((condPasses (instrCondition i s.ctx) s.flags = false ∧ s' = s.advancePc)
        ∨ (i.direction = .read ∧ AccessAllowed s.config s.ctx ∧ s' = s.readCpacrInto t)
        ∨ (i.direction = .write ∧ AccessAllowed s.config s.ctx ∧ WritesNoRes0 s.config (s.readReg t)
          ∧ s' = s.writeCpacrFrom (s.readReg t))) := by
  rw [exec_eq] at h
  cases hd : i.direction <;> rw [hd] at h
  · obtain ⟨t, ht, ⟨hc, hs⟩ | ⟨-, ha, hs⟩⟩ := moveFromCpacr_next _ _ _ _ h
    · exact ⟨t, ht, .inl ⟨hc, hs⟩⟩
    · exact ⟨t, ht, .inr (.inl ⟨rfl, ha, hs⟩)⟩
  · obtain ⟨t, ht, ⟨hc, hs⟩ | ⟨-, ha, hv, hs⟩⟩ := moveToCpacr_next _ _ _ _ h
    · exact ⟨t, ht, .inl ⟨hc, hs⟩⟩
    · exact ⟨t, ht, .inr (.inr ⟨rfl, ha, hv, hs⟩)⟩

/-- An admitted instruction whose condition passes takes the exception that `Check` takes (40 R62). -/
theorem exec_take (i : Instr) (s : State) (e : ExceptionKind) (hw : i.wf = true)
    (hc : condPasses (instrCondition i s.ctx) s.flags = true) (he : accessCheck s.config s.ctx = .take e) :
    exec i s = takeException e (.instr i) := by
  obtain ⟨t, hr, -⟩ := wf_regIndex i hw
  rw [exec_eq]
  cases i.direction
  · exact moveFromCpacr_take _ _ _ _ _ hr hc he
  · exact moveToCpacr_take _ _ _ _ _ hr hc he

/-- Every fault an instruction can answer with: the exception that `Check` takes. -/
theorem exec_fault (i : Instr) (s : State) (f : Fault) (h : exec i s = .fault f) :
    condPasses (instrCondition i s.ctx) s.flags = true
      ∧ ∃ e, accessCheck s.config s.ctx = .take e ∧ takeException e (.instr i) = .fault f := by
  rw [exec_eq] at h
  cases hd : i.direction <;> rw [hd] at h
  · exact moveFromCpacr_fault _ _ _ _ h
  · exact moveToCpacr_fault _ _ _ _ h

/-- A well-formed instruction's register is the one whose number its field holds. -/
theorem regIndex_of_wf (i : Instr) (t : Fin 15) (hw : i.wf = true) (ht : t.val = i.rt.toNat) :
    regIndex i.set i.rt = some t := (regIndex_eq_some _ _ _).mpr ⟨hw, ht⟩

/-- An admitted MRC whose condition passes and whose access is allowed. -/
theorem exec_read_allowed (i : Instr) (s : State) (t : Fin 15) (hd : i.direction = .read) (hw : i.wf = true)
    (ht : t.val = i.rt.toNat) (hc : condPasses (instrCondition i s.ctx) s.flags = true)
    (ha : AccessAllowed s.config s.ctx) : exec i s = .next (s.readCpacrInto t) := by
  rw [exec_eq, hd]
  exact moveFromCpacr_allowed _ _ _ _ (regIndex_of_wf i t hw ht) hc ha

/-- An admitted MCR whose condition passes and whose access is allowed. -/
theorem exec_write_allowed (i : Instr) (s : State) (t : Fin 15) (hd : i.direction = .write) (hw : i.wf = true)
    (ht : t.val = i.rt.toNat) (hc : condPasses (instrCondition i s.ctx) s.flags = true)
    (ha : AccessAllowed s.config s.ctx) : exec i s = writeCpacr s (s.readReg t) := by
  rw [exec_eq, hd]
  exact moveToCpacr_allowed _ _ _ _ (regIndex_of_wf i t hw ht) hc ha

/-- An MRC whose condition passes and that completes. -/
theorem exec_read_next (i : Instr) (s s' : State) (t : Fin 15) (hd : i.direction = .read) (ht : t.val = i.rt.toNat)
    (hc : condPasses (instrCondition i s.ctx) s.flags = true) (h : exec i s = .next s') : s' = s.readCpacrInto t := by
  rw [exec_eq, hd] at h
  obtain ⟨t', ht', ⟨hc', -⟩ | ⟨-, -, rfl⟩⟩ := moveFromCpacr_next _ _ _ _ h
  · simp [hc] at hc'
  · rw [Fin.ext (((regIndex_eq_some _ _ _).mp ht').2.trans ht.symm)]

/-- An MCR whose condition passes and that completes. -/
theorem exec_write_next (i : Instr) (s s' : State) (t : Fin 15) (hd : i.direction = .write) (ht : t.val = i.rt.toNat)
    (hc : condPasses (instrCondition i s.ctx) s.flags = true) (h : exec i s = .next s') :
    WritesNoRes0 s.config (s.readReg t) ∧ s' = s.writeCpacrFrom (s.readReg t) := by
  rw [exec_eq, hd] at h
  obtain ⟨t', ht', ⟨hc', -⟩ | ⟨-, -, hv, rfl⟩⟩ := moveToCpacr_next _ _ _ _ h
  · simp [hc] at hc'
  · obtain rfl : t' = t := Fin.ext (((regIndex_eq_some _ _ _).mp ht').2.trans ht.symm)
    exact ⟨hv, rfl⟩

/-- Where the spec gives a gating rule at PL0 and PL1. -/
theorem gatingSpecified_of_gatedPrivilege (cfg : Config) (ctx : Context) (h : GatedPrivilege cfg ctx) :
    gatingSpecified cfg ctx = true := by
  obtain ⟨h1, -, h3⟩ := h
  unfold gatingSpecified
  by_cases he : ctx.el = .el0 <;> simp [h1, he, h3]

/-- The gate's three answers (41 R88, R91, R94). -/
theorem gate_eq_permitted_iff (s : State) (g : GatedInstr) :
    s.gate g = .permitted ↔ el0TraceUndefined s.config s.ctx g = false ∧ gatingSpecified s.config s.ctx = true
      ∧ s.cpacrMakesUndefined g s.gateDraws = false := by
  unfold State.gate
  cases el0TraceUndefined s.config s.ctx g <;> cases gatingSpecified s.config s.ctx <;>
    cases s.cpacrMakesUndefined g s.gateDraws <;> simp

theorem gate_eq_undefined_iff (s : State) (g : GatedInstr) :
    s.gate g = .undefined ↔ el0TraceUndefined s.config s.ctx g = true
      ∨ (gatingSpecified s.config s.ctx = true ∧ s.cpacrMakesUndefined g s.gateDraws = true) := by
  unfold State.gate
  cases el0TraceUndefined s.config s.ctx g <;> cases gatingSpecified s.config s.ctx <;>
    cases s.cpacrMakesUndefined g s.gateDraws <;> simp

/-- What a gated instruction answers, by the gate. -/
theorem execGated_permitted (g : GatedInstr) (p : Pe) (s : State) (h : s.gate g = .permitted) :
    execGated g p s = .next ((s.setPe p).countDraws gateDrawCount) := by
  simp [execGated, h]

theorem execGated_undefined (g : GatedInstr) (p : Pe) (s : State) (h : s.gate g = .undefined) :
    execGated g p s = .fault (.undefined (.gated g)) := by
  simp [execGated, h, takeException]

theorem execGated_next (g : GatedInstr) (p : Pe) (s s' : State) (h : execGated g p s = .next s') :
    s.gate g = .permitted ∧ s' = (s.setPe p).countDraws gateDrawCount := by
  unfold execGated at h
  split at h
  · exact absurd h (takeException_ne_next _ _ _)
  · rename_i hg
    cases h
    exact ⟨hg, rfl⟩
  · cases h

/-- With no earlier storage visible, a consultation sees the storage as it is. -/
@[simp] theorem seenCpacr_of_pending_nil (s : State) (k : Nat) (h : s.pending = []) : s.seenCpacr k = s.cpacr := by
  unfold State.seenCpacr
  split <;> simp [h]

/-- A consultation sees the storage as it is, or an earlier one still pending (70 R126). -/
theorem seenCpacr_mem (s : State) (k : Nat) : s.seenCpacr k = s.cpacr ∨ s.seenCpacr k ∈ s.pending := by
  unfold State.seenCpacr
  split
  · exact .inl rfl
  · by_cases h : k % (s.pending.length + 1) < s.pending.length
    · right
      rw [List.getD_eq_getElem _ _ h]
      exact List.getElem_mem h
    · left
      rw [List.getD_eq_default _ _ (by omega)]

/-- The storages a consultation may see are the visible ones, each for some choice (70 R126). -/
theorem exists_seenCpacr_iff (s : State) (S : Cpacr) : (∃ k, s.seenCpacr k = S) ↔ Visible s S := by
  cases hm : s.config.syncModel
  · simp [State.seenCpacr, Visible, hm, eq_comm]
  · constructor
    · rintro ⟨k, rfl⟩
      exact (seenCpacr_mem s k).imp_right fun h => ⟨hm, h⟩
    · rintro (rfl | ⟨-, h⟩)
      · exact ⟨s.pending.length, by simp [State.seenCpacr, hm]⟩
      · obtain ⟨k, hk, rfl⟩ := List.getElem_of_mem h
        exact ⟨k, by simp [State.seenCpacr, hm, Nat.mod_eq_of_lt (Nat.lt_succ_of_lt hk), hk]⟩

/-- The class of 41 R82 is every gated instruction but a trace access. -/
theorem isFPASIMDAccess_iff (g : GatedInstr) : isFPASIMDAccess g = true ↔ g ≠ .traceSystemRegisterAccess := by
  cases g <;> simp [isFPASIMDAccess]

/-- Below PL2, when cp10 of a storage makes its class UNDEFINED (10 R26; 41 R81, R83). -/
theorem cp10Undefined_iff (cfg : Config) (ctx : Context) (S : Cpacr) (pl0 : Bool) (h : ctx.el ≠ .el2) :
    cp10Undefined cfg.cp10Reserved (effCp10 cfg ctx S) (privilegeLevel ctx.el) pl0 = true ↔ Cp10Denies cfg ctx S pl0 := by
  simp only [effCp10, Cp10Denies, ← nsFpRazwi_iff]
  cases cfg.haveFPASIMD <;> cases nsFpRazwi cfg ctx <;> cases cfg.cp10Reserved <;> cases hel : ctx.el <;>
    first | exact absurd hel h | (generalize S.cp10 = e; revert e; cases pl0 <;> decide)

/-- When ASEDIS of a storage behaves as 1 (10 R15). -/
theorem effAsedis_iff (cfg : Config) (ctx : Context) (S : Cpacr) :
    effAsedis cfg ctx S = true ↔ AsedisBehavesAs1 cfg ctx S := by
  simp only [effAsedis, AsedisBehavesAs1, ← nsAsedisRaowi_iff]
  cases cfg.haveFPASIMD <;> cases nsAsedisRaowi cfg ctx <;> cases cfg.asedisRW <;> simp

/-- When TRCDIS of a storage behaves as 1 (10 R19). -/
theorem effTrcdis_iff (cfg : Config) (ctx : Context) (S : Cpacr) (draw : Bool) :
    effTrcdis cfg ctx S draw = true ↔ TrcdisBehavesAs1 cfg ctx S draw := by
  simp only [effTrcdis, TrcdisBehavesAs1, ← nsTrcdisRaowi_iff]
  cases cfg.haveTraceSysRegs <;> cases nsTrcdisRaowi cfg ctx <;> cases cfg.trcdisRW <;> cases S.trcdis <;> simp [trcdisValue]

/-- Below PL2 the test of a gated instruction (41 R91) is what the controls say in the storages that its draws choose. -/
theorem cpacrMakesUndefined_iff (s : State) (g : GatedInstr) (u : GateDraws) (h : s.ctx.el ≠ .el2) :
    s.cpacrMakesUndefined g u = true ↔
      Denies s.config s.ctx (s.seenCpacr u.pickCp10) (s.seenCpacr u.pickAsedis) (s.seenCpacr u.pickTrcdis) u.pl0 u.trcdis g := by
  have hp : privilegeLevel s.ctx.el ≠ .pl2 := by
    cases hel : s.ctx.el <;> simp_all [privilegeLevel]
  simp only [State.cpacrMakesUndefined, Denies, ← cp10Undefined_iff _ _ _ _ h, ← effAsedis_iff, ← effTrcdis_iff]
  cases g <;> simp [isFPASIMDAccess, isASIMDOnly, isTraceSysRegAccess, asedisUndefined, trcdisUndefined, hp]

/-- Running an instruction that answers a next state: the bytes at `pc` decode, and the instruction answers it. -/
theorem runInstruction_next (s s' : State) (h : runInstruction s = .next s') :
    ∃ bytes i rest, s.fetchBytes = .ok bytes ∧ decode s.ctx.iset bytes = .ok (i, rest) ∧ exec i s = .next s' := by
  unfold runInstruction at h
  split at h
  · cases h
  · rename_i bytes hb
    split at h
    · rename_i i rest hd
      exact ⟨bytes, i, rest, hb, hd, h⟩
    · cases h

/-- Everything a step can answer a next state with. -/
theorem step_next (s s' : State) (h : step s = .next s') :
    (∃ s0 bytes i rest, RunsInstruction s s0 ∧ s0.fetchBytes = .ok bytes ∧ decode s0.ctx.iset bytes = .ok (i, rest)
        ∧ exec i s0 = .next s')
      ∨ ∃ e rest, s.inputs = e :: rest ∧ e ≠ .proceed ∧ runInput e { s with inputs := rest } = .next s' := by
  unfold step at h
  split at h
  · rename_i hi
    obtain ⟨bytes, i, r, hb, hd, he⟩ := runInstruction_next _ _ h
    exact .inl ⟨s, bytes, i, r, .inl ⟨hi, rfl⟩, hb, hd, he⟩
  · rename_i e rest hi
    by_cases hp : e = .proceed
    · subst hp
      obtain ⟨bytes, i, r, hb, hd, he⟩ := runInstruction_next _ _ h
      exact .inl ⟨{ s with inputs := rest }, bytes, i, r, .inr ⟨rest, hi, rfl⟩, hb, hd, he⟩
    · exact .inr ⟨e, rest, hi, hp, h⟩

/-- A step with an entry in the schedule takes it. -/
theorem step_cons (s : State) (e : Input) (rest : List Input) (h : s.inputs = e :: rest) :
    step s = runInput e { s with inputs := rest } := by
  simp [step, h]

/-- A step that meets a gated instruction which CPACR makes UNDEFINED. -/
theorem step_gated_undefined (s : State) (g : GatedInstr) (p : Pe) (rest : List Input) (hi : s.inputs = .gated g p :: rest)
    (h : s.gate g = .undefined) : step s = .fault (.undefined (.gated g)) := by
  rw [step_cons s _ rest hi]
  exact execGated_undefined g p { s with inputs := rest } h

/-- A step that meets a gated instruction which CPACR permits. -/
theorem step_gated_permitted (s : State) (g : GatedInstr) (p : Pe) (rest : List Input) (hi : s.inputs = .gated g p :: rest)
    (h : s.gate g = .permitted) :
    step s = .next ((State.setPe { s with inputs := rest } p).countDraws gateDrawCount) := by
  rw [step_cons s _ rest hi]
  exact execGated_permitted g p { s with inputs := rest } h

/-- Everything a step that meets a gated instruction can answer a next state with. -/
theorem step_gated_next (s s' : State) (g : GatedInstr) (p : Pe) (rest : List Input) (hi : s.inputs = .gated g p :: rest)
    (h : step s = .next s') :
    s.gate g = .permitted ∧ s' = (State.setPe { s with inputs := rest } p).countDraws gateDrawCount := by
  rw [step_cons s _ rest hi] at h
  exact execGated_next g p { s with inputs := rest } s' h

theorem step_nil (s : State) (h : s.inputs = []) : step s = runInstruction s := by
  simp [step, h]

end Sys2Proof.Machine
end

