-- ==== Sys2Proof/Laws/PerInstr.lean ====
section
/-! SUPPORT. Statements about every instruction as syntax, one lemma per constructor. -/

namespace Sys2Proof.Laws.EncodeLength

/-- Every encoding is 32 bits, four bytes, wide (10 R36). -/
def Statement (i : Instr) : Prop := (encode i).length = 4

theorem mrcA32 (cond : Cond) (rt : BitVec 4) : Statement (.mrcA32 cond rt) := bytesOfWord_length _ _

theorem mcrA32 (cond : Cond) (rt : BitVec 4) : Statement (.mcrA32 cond rt) := bytesOfWord_length _ _

theorem mrcT32 (rt : BitVec 4) : Statement (.mrcT32 rt) := bytesOfWord_length _ _

theorem mcrT32 (rt : BitVec 4) : Statement (.mcrT32 rt) := bytesOfWord_length _ _

end Sys2Proof.Laws.EncodeLength
end

