-- ==== Sys2Proof/Machine/Syndrome.lean ====
section
/-! DEFINITION. The gloss under 60 R105: what a syndrome register would record of a trapped access. PRESUMED (log 30): general
knowledge, which no rule relies on; no step writes it, since the spec describes no exception entry. -/

namespace Sys2Proof.Machine

/-- The `Direction` bit of the ISS: 1 for a read. -/
def issDirection : Direction → BitVec 1
  | .read => 1#1
  | .write => 0#1

/-- The 25-bit ISS of a trapped access: CV, COND, Opc2, Opc1, CRn, Rt, CRm, Direction (60, gloss on R105). -/
def trapIss (i : Instr) (cond : Cond) : BitVec 25 :=
  1#1 ++ encodeCond cond ++ cpacrTuple.opc2 ++ cpacrTuple.opc1 ++ cpacrTuple.crn ++ (0#1 ++ i.rt) ++ cpacrTuple.crm
    ++ issDirection i.direction

end Sys2Proof.Machine
end

