-- ==== Sys2Proof/Tests/Slice0.lean ====
section
/-! SUPPORT. The model's own tests. Expected values are those of 95_test_vectors, whose vector or program a theorem's docstring
names; the encodings are words of 95 section 2.6. The last part is one witness for every statement that has hypotheses. -/

namespace Sys2Proof.Tests

open Sys2Proof.Machine

/-! ## Well-formedness and decoding -/

/-- 40 R68: the register that is not admitted, and the one only A32 admits. -/
theorem test_wf_refuses : (Instr.mrcA32 .al 15#4).wf = false ∧ (Instr.mcrA32 .ne 15#4).wf = false
    ∧ (Instr.mrcT32 15#4).wf = false ∧ (Instr.mrcT32 13#4).wf = false ∧ (Instr.mcrT32 13#4).wf = false
    ∧ (Instr.mcrT32 15#4).wf = false := by decide

theorem test_wf_admits : (Instr.mrcA32 .al 13#4).wf = true ∧ (Instr.mcrA32 .al 14#4).wf = true
    ∧ (Instr.mrcT32 14#4).wf = true ∧ (Instr.mcrT32 12#4).wf = true := by decide

/-- 95 section 2.6, the A32 column, MRC. -/
theorem test_decode_mrcA32 : decodeWord .a32 0xEE110F50#32 = .ok (.mrcA32 .al 0#4)
    ∧ decodeWord .a32 0xEE117F50#32 = .ok (.mrcA32 .al 7#4) ∧ decodeWord .a32 0xEE11EF50#32 = .ok (.mrcA32 .al 14#4)
    ∧ decodeWord .a32 0x1E110F50#32 = .ok (.mrcA32 .ne 0#4) := ⟨rfl, rfl, rfl, rfl⟩

/-- 95 section 2.6, the A32 column, MCR. -/
theorem test_decode_mcrA32 : decodeWord .a32 0xEE010F50#32 = .ok (.mcrA32 .al 0#4)
    ∧ decodeWord .a32 0xEE012F50#32 = .ok (.mcrA32 .al 2#4) ∧ decodeWord .a32 0xEE01CF50#32 = .ok (.mcrA32 .al 12#4)
    ∧ decodeWord .a32 0x0E010F50#32 = .ok (.mcrA32 .eq 0#4) := ⟨rfl, rfl, rfl, rfl⟩

/-- 95 section 2.6, the T32 column: `hw1` in the two lower bytes, each halfword little-endian. -/
theorem test_decode_mrcT32 : decode .t32 [0x11#8, 0xEE#8, 0x50#8, 0x1F#8] = .ok (.mrcT32 1#4, [])
    ∧ decode .t32 [0x11#8, 0xEE#8, 0x50#8, 0xEF#8] = .ok (.mrcT32 14#4, []) := ⟨rfl, rfl⟩

theorem test_decode_mcrT32 : decode .t32 [0x01#8, 0xEE#8, 0x50#8, 0x2F#8] = .ok (.mcrT32 2#4, [])
    ∧ decode .t32 [0x01#8, 0xEE#8, 0x50#8, 0xCF#8, 0xAA#8] = .ok (.mcrT32 12#4, [0xAA#8]) := ⟨rfl, rfl⟩

/-- The same words, encoded. -/
theorem test_encode : encodeWord (.mrcA32 .ne 0#4) = 0x1E110F50#32 ∧ encodeWord (.mcrA32 .al 2#4) = 0xEE012F50#32
    ∧ encodeWord (.mrcT32 7#4) = 0xEE117F50#32 ∧ encodeWord (.mcrT32 12#4) = 0xEE01CF50#32 := by decide

/-- The decode checks of 95 section 2.6. -/
theorem test_decode_refuses :
    decodeWord .a32 0xEE110F10#32 = .error (.otherRegister { cpacrTuple with opc2 := 0#3 })
    ∧ decodeWord .t32 0xEE110F70#32 = .error (.otherRegister { cpacrTuple with opc2 := 3#3 })
    ∧ decodeWord .a32 0xEE111F51#32 = .error (.otherRegister { cpacrTuple with crm := 1#4 })
    ∧ decodeWord .t32 0xEE120F50#32 = .error (.otherRegister { cpacrTuple with crn := 2#4 })
    ∧ decodeWord .a32 0xEE110E50#32 = .error (.otherRegister { cpacrTuple with coproc := 14#4 })
    ∧ decodeWord .t32 0xEE310F50#32 = .error (.otherRegister { cpacrTuple with opc1 := 1#3 })
    ∧ decodeWord .a32 0xEE11FF50#32 = .error (.rtNotAdmitted .a32 15#4)
    ∧ decodeWord .t32 0xEE01DF50#32 = .error (.rtNotAdmitted .t32 13#4)
    ∧ decodeWord .a32 0xFE110F50#32 = .error (.condReserved 0xFE110F50#32)
    ∧ decodeWord .t32 0x1E110F50#32 = .error (.notRegisterMove 0x1E110F50#32)
    ∧ decode .a32 [0x50#8, 0x0F#8, 0x11#8] = .error .truncated :=
  ⟨rfl, rfl, rfl, rfl, rfl, rfl, rfl, rfl, rfl, rfl, rfl⟩

/-- The four rows of the opcode table by their match values, and one word no row has. -/
theorem test_table_words : decodeTableWord 32 0x0E110F50 = some (.mrcA32 .eq 0#4)
    ∧ decodeTableWord 32 0x0E010F50 = some (.mcrA32 .eq 0#4) ∧ decodeTableWord 32 0xEE110F50 = some (.mrcT32 0#4)
    ∧ decodeTableWord 32 0xEE010F50 = some (.mcrT32 0#4) ∧ decodeTableWord 32 0xEE110F10 = none :=
  ⟨rfl, rfl, rfl, rfl, rfl⟩

/-! ## The vectors of 95 section 2 -/

/-- `{ASEDIS, TRCDIS, cp11, cp10}` as 95 section 0 writes a storage. -/
def stored (a : Bool) (t : TrcdisBit) (cp11 cp10 : BitVec 2) : Cpacr :=
  { asedis := a, trcdis := t, cp11 := cp11, cp10 := cp10, res0 := 0#32 }

/-- REF. -/
def ref : Config := Config.reference

/-- Sec, at EL3. -/
def sec : Context := Context.reset

/-- NS32(c, a, t), at EL1. -/
def ns32 (c a t : Bool) : Context :=
  { Context.reset with el := .el1, isSecure := false, nsacrCp10 := c, nsacrNsasedis := a, nsacrNstrcdis := t }

/-- NS64, at EL1, with NSACR inputs (0, 1, 1). -/
def ns64 : Context := { ns32 false true true with el3UsingAArch32 := false }

/-- Every direct read of `S` gives `v`, whatever is drawn. -/
abbrev Reads (cfg : Config) (ctx : Context) (S : Cpacr) (v : Word) : Prop :=
  ∀ (a t : Bool) (x : BitVec 2), cpacrRead cfg ctx S ⟨a, t, x⟩ = v

/-- The layout table of 10 R11: masks, and widths that sum to 32. -/
theorem test_layout :
    [CpacrField.asedis, .res30, .trcdis, .res27, .cp11, .cp10, .res19].map CpacrField.mask
      = [0x80000000#32, 0x60000000#32, 0x10000000#32, 0x0F000000#32, 0x00C00000#32, 0x00300000#32, 0x000FFFFF#32]
    ∧ ([CpacrField.asedis, .res30, .trcdis, .res27, .cp11, .cp10, .res19].map CpacrField.width).sum = 32
    ∧ namedFields = 0x90F00000#32 ∧ alwaysReserved = 0x6F0FFFFF#32 := by decide

/-- RD1 to RD4, RD7 to RD10, RD16. -/
theorem test_read_vectors : Reads ref sec (stored false (.known false) 0 0) 0x00000000
    ∧ Reads ref sec (stored false (.known false) 3 3) 0x00F00000
    ∧ Reads ref sec (stored true (.known true) 3 3) 0x90F00000
    ∧ Reads ref sec (stored false (.known false) 1 1) 0x00500000
    ∧ Reads ref (ns32 false false false) (stored false (.known false) 3 3) 0x00000000
    ∧ Reads ref (ns32 true true true) (stored false (.known false) 3 3) 0x90F00000
    ∧ Reads ref (ns32 false true false) (stored false (.known false) 0 3) 0x80000000
    ∧ Reads ref ns64 (stored false (.known false) 3 3) 0x00F00000
    ∧ Reads ref sec (stored false (.known false) 2 2) 0x00A00000 := by decide

/-- RD11 to RD15 and RD17: the configurations that REF is not. -/
theorem test_read_vectors_other_configurations :
    Reads { ref with asedisRW := false } sec (stored false (.known false) 3 3) 0x00F00000
    ∧ Reads { ref with asedisRW := false } (ns32 true true false) (stored false (.known false) 3 3) 0x80F00000
    ∧ Reads { ref with haveFPASIMD := false } sec (stored false (.known true) 0 0) 0x10000000
    ∧ (∀ a t x, cpacrRead { ref with haveFPASIMD := false } (ns32 true true false) (stored false (.known false) 0 0)
        ⟨a, t, x⟩ = if a then 0x80000000#32 else 0#32)
    ∧ Reads { ref with haveTraceSysRegs := false } sec (stored true .unknown 3 3) 0x80F00000
    ∧ Reads { ref with trcdisRW := false } (ns32 true false true) (stored false .unknown 0 0) 0x10000000 := by decide

/-- RD5 and RD6: what is drawn is what is read. -/
theorem test_read_unknown :
    (∀ a t, (List.map (fun x => cpacrRead ref sec (stored false (.known false) 0 3) ⟨a, t, x⟩) [0#2, 1#2, 2#2, 3#2])
      = [0x00300000#32, 0x00700000#32, 0x00B00000#32, 0x00F00000#32])
    ∧ (∀ a x, cpacrRead ref sec Cpacr.reset ⟨a, false, x⟩ = 0#32
      ∧ cpacrRead ref sec Cpacr.reset ⟨a, true, x⟩ = 0x10000000#32) := by decide

/-- WR1, WR2, WR5 to WR7, WR9, WR10, WR12, WR13: the storage after. -/
theorem test_write_vectors :
    cpacrWrite ref sec Cpacr.reset 0x00F00000 = stored false (.known false) 3 3
    ∧ cpacrWrite ref sec (stored false (.known false) 0 0) 0x90F00000 = stored true (.known true) 3 3
    ∧ cpacrWrite ref (ns32 false false false) (stored false (.known false) 0 0) 0x90F00000 = stored true (.known true) 0 0
    ∧ cpacrWrite ref (ns32 true true true) (stored false (.known false) 0 0) 0x00F00000 = stored false (.known false) 3 3
    ∧ cpacrWrite ref (ns32 true true false) (stored false (.known false) 3 3) 0x80F00000 = stored false (.known false) 3 3
    ∧ cpacrWrite ref sec (stored false (.known false) 3 3) 0x00300000 = stored false (.known false) 0 3
    ∧ cpacrWrite ref sec (stored false (.known false) 3 3) 0x00200000 = stored false (.known false) 0 2
    ∧ cpacrWrite ref sec (stored true (.known true) 1 1) 0x00000000 = stored false (.known false) 0 0
    ∧ cpacrWrite ref (ns32 true false true) Cpacr.reset 0x00000000 = Cpacr.reset := by decide

/-- WR3, WR4, WR8, WR11: RES0 bits, and fields that are not there. -/
theorem test_write_vectors_other_configurations :
    0xFFFFFFFF#32 &&& refusedOnes ref ≠ 0#32
    ∧ 0xFFFFFFFF#32 &&& refusedOnes { ref with res0Readback := true } = 0#32
    ∧ cpacrWrite { ref with res0Readback := true } sec (stored false (.known false) 0 0) 0xFFFFFFFF
      = { stored true (.known true) 3 3 with res0 := 0x6F0FFFFF#32 }
    ∧ Reads { ref with res0Readback := true } sec { stored true (.known true) 3 3 with res0 := 0x6F0FFFFF#32 } 0xFFFFFFFF
    ∧ cpacrWrite { ref with trcdisRW := false } sec Cpacr.reset 0x10000000 = Cpacr.reset
    ∧ cpacrWrite { ref with haveFPASIMD := false } sec (stored false (.known false) 0 0) 0x10000000
      = stored false (.known true) 0 0
    ∧ 0x00100000#32 &&& refusedOnes { ref with haveFPASIMD := false } ≠ 0#32
    ∧ 0x10000000#32 &&& refusedOnes { ref with haveTraceSysRegs := false } ≠ 0#32 := by decide

/-- A context in the columns of 95 section 2.3: the level; EL2 enabled and in AArch64; its four bits; EL3 in AArch64 and its
bit; the two SDD helpers. -/
def column (el : ExceptionLevel) (en2 a64 t64 t32 c64 c32 el3a64 c3 priority sdd : Bool) : Context :=
  { Context.reset with
    el := el
    el2Enabled := en2
    el2UsingAArch32 := !a64
    hstrEl2T1 := t64
    hstrT1 := t32
    cptrEl2Tcpac := c64
    hcptrTcpac := c32
    el3UsingAArch32 := !el3a64
    cptrEl3Tcpac := c3
    el3SDDUndefPriority := priority
    el3SDDUndef := sdd }

/-- AC1 to AC23, but for the rows below. -/
theorem test_access_check :
    accessCheck { ref with featAA32EL1 := false } (column .el3 true true true true true true false true true true)
      = .take .undefined
    ∧ accessCheck ref (column .el0 true false true true true true true true true true) = .take .undefined
    ∧ accessCheck ref (column .el1 false true false false false false true false false false) = .allow
    ∧ accessCheck ref (column .el1 true true true false false false true false false false) = .take (.sysAccessTrap .el2)
    ∧ accessCheck ref (column .el1 true false false true false false false false false false) = .take .hypTrap
    ∧ accessCheck ref (column .el1 true true false false true false true false false false) = .take (.sysAccessTrap .el2)
    ∧ accessCheck ref (column .el1 true false false false false true false false false false) = .take .hypTrap
    ∧ accessCheck ref (column .el1 false false false true false true false false false false) = .allow
    ∧ accessCheck ref (column .el1 true true false true false true true false false false) = .allow
    ∧ accessCheck ref (column .el1 true false true false true false false false false false) = .allow
    ∧ accessCheck ref (column .el1 false true false false false false true true false false) = .take (.sysAccessTrap .el3)
    ∧ accessCheck ref (column .el1 false true false false false false true true false true) = .take .undefined
    ∧ accessCheck ref (column .el1 true true false false true false true true false false) = .take (.sysAccessTrap .el2)
    ∧ accessCheck ref (column .el1 true true false false true false true true true true) = .take .undefined
    ∧ accessCheck ref (column .el1 true true false false true false true true false true) = .take (.sysAccessTrap .el2) := by
  decide

/-- AC16 to AC23. -/
theorem test_access_check_el3 :
    accessCheck ref (column .el1 false true false false false false false true false false) = .allow
    ∧ accessCheck { ref with haveEL3 := false } (column .el1 false true false false false false true true true true) = .allow
    ∧ accessCheck ref (column .el2 true false true true true true false false false false) = .allow
    ∧ accessCheck ref (column .el2 true false false false false false true true false false) = .take (.sysAccessTrap .el3)
    ∧ accessCheck ref (column .el2 true false false false false false true true false true) = .take .undefined
    ∧ accessCheck ref (column .el2 true false false false false false true true true true) = .take .undefined
    ∧ accessCheck ref (column .el3 true false true true true true false true true true) = .allow
    ∧ accessCheck { ref with featAA64EL3 := false } (column .el1 false true false false false false true true false false)
      = .allow := by
  decide

/-- The table of 95 section 2.4: PL0, PL1, PL2 for each value of cp10. -/
theorem test_cp10_table :
    (∀ c d, [PrivilegeLevel.pl0, .pl1, .pl2].map (cp10Undefined c 0b00#2 · d) = [true, true, false]
      ∧ [PrivilegeLevel.pl0, .pl1, .pl2].map (cp10Undefined c 0b01#2 · d) = [true, false, false]
      ∧ [PrivilegeLevel.pl0, .pl1, .pl2].map (cp10Undefined c 0b11#2 · d) = [false, false, false])
    ∧ (∀ d, [PrivilegeLevel.pl0, .pl1, .pl2].map (cp10Undefined .as00 0b10#2 · d) = [true, true, false]
      ∧ [PrivilegeLevel.pl0, .pl1, .pl2].map (cp10Undefined .as01 0b10#2 · d) = [true, false, false]
      ∧ [PrivilegeLevel.pl0, .pl1, .pl2].map (cp10Undefined .as11 0b10#2 · d) = [false, false, false]
      ∧ [PrivilegeLevel.pl0, .pl1, .pl2].map (cp10Undefined .pl1undef 0b10#2 · d) = [d, true, false]) := by
  refine ⟨?_, by decide⟩
  intro c d
  cases c <;> cases d <;> decide

/-- A machine under REF with no earlier storage visible. -/
def machine (ctx : Context) (S : Cpacr) : State := { State.reset with ctx := ctx, cpacr := S }

/-- The context at an Exception level, its other inputs kept. -/
def atEl (el : ExceptionLevel) (ctx : Context) : Context := { ctx with el := el }

/-- Draws of a gated instruction that choose the first storage. -/
def draws (trcdis pl0 : Bool) : GateDraws :=
  { pickCp10 := 0, pickAsedis := 0, pickTrcdis := 0, trcdis := trcdis, pl0 := pl0 }

/-- GT1 to GT10, GT16, GT17. -/
theorem test_gate_vectors (t p : Bool) :
    (machine sec (stored false (.known false) 0 0)).cpacrMakesUndefined .floatingPoint (draws t p) = true
    ∧ (machine (atEl .el0 sec) (stored false (.known false) 3 3)).cpacrMakesUndefined .floatingPoint (draws t p) = false
    ∧ (machine (atEl .el0 sec) (stored false (.known false) 1 1)).cpacrMakesUndefined .floatingPoint (draws t p) = true
    ∧ (machine sec (stored false (.known false) 1 1)).cpacrMakesUndefined .floatingPoint (draws t p) = false
    ∧ (machine (ns32 false false false) (stored false (.known false) 3 3)).cpacrMakesUndefined .floatingPoint (draws t p)
      = true
    ∧ (machine (atEl .el2 sec) (stored false (.known false) 0 0)).cpacrMakesUndefined .floatingPoint (draws t p) = false
    ∧ (machine sec (stored true (.known false) 3 3)).cpacrMakesUndefined .advancedSimdOnly (draws t p) = true
    ∧ (machine sec (stored true (.known false) 3 3)).cpacrMakesUndefined .floatingPoint (draws t p) = false
    ∧ (machine (atEl .el0 (ns32 true true false)) (stored false (.known false) 3 3)).cpacrMakesUndefined .advancedSimdOnly
      (draws t p) = true
    ∧ (machine (atEl .el0 sec) (stored false (.known false) 3 3)).cpacrMakesUndefined .advancedSimdOnly (draws t p) = false
    ∧ (machine (atEl .el2 sec) (stored true (.known true) 0 0)).cpacrMakesUndefined .advancedSimdOnly (draws t p) = false
    ∧ (machine sec (stored true (.known false) 0 0)).cpacrMakesUndefined .advancedSimdOnly (draws t p) = true :=
  ⟨rfl, rfl, rfl, rfl, rfl, rfl, rfl, rfl, rfl, rfl, rfl, rfl⟩

/-- GT11 to GT16, for trace System register accesses. -/
theorem test_gate_trace (p : Bool) :
    (∀ t, (machine sec (stored false (.known true) 0 0)).cpacrMakesUndefined .traceSystemRegisterAccess (draws t p) = true
      ∧ (machine sec (stored false (.known false) 0 0)).cpacrMakesUndefined .traceSystemRegisterAccess (draws t p) = false
      ∧ (machine sec Cpacr.reset).cpacrMakesUndefined .traceSystemRegisterAccess (draws t p) = t
      ∧ (machine (ns32 false false true) (stored false (.known false) 0 0)).cpacrMakesUndefined .traceSystemRegisterAccess
        (draws t p) = true
      ∧ (machine (atEl .el2 sec) (stored true (.known true) 0 0)).cpacrMakesUndefined .traceSystemRegisterAccess (draws t p)
        = false)
    ∧ (machine (atEl .el0 sec) (stored false (.known false) 0 0)).gate .traceSystemRegisterAccess = .undefined :=
  ⟨fun t => ⟨rfl, rfl, by cases t <;> rfl, rfl, rfl⟩, rfl⟩

/-- RS1, RS2, RS4: the storage after a Warm reset, and a direct read of it under NS32(0, 1, 1). -/
theorem test_warm_reset (p : Pe) :
    ((machine sec (stored true (.known true) 3 3)).warmReset p).cpacr = stored false .unknown 0 0
    ∧ ((machine sec Cpacr.reset).warmReset p).cpacr = stored false .unknown 0 0
    ∧ Reads ref (ns32 false true true) (stored false .unknown 0 0) 0x90000000 := ⟨rfl, rfl, by decide⟩

/-- The gloss of 60 R105 for P5 (a write with `Rt` = 0) and for a read with `Rt` = 0. -/
theorem test_syndrome : trapIss (.mcrA32 .al 0#4) .al = 0x1E40400#25 ∧ trapIss (.mrcA32 .al 0#4) .al = 0x1E40401#25 := by
  decide

/-! ## Programs of 95 section 3, a step each -/

/-- A machine with one general register set. -/
def machineWith (ctx : Context) (S : Cpacr) (t : Fin 15) (v : Word) : State := (machine ctx S).writeReg t v

/-- P1, step 1. -/
theorem test_mcrA32_enables :
    ∃ s', exec (.mcrA32 .al 0#4) (machineWith sec Cpacr.reset 0 0x00F00000) = .next s'
      ∧ s'.cpacr = stored false (.known false) 3 3 ∧ s'.pc = 4 ∧ s'.pending = [Cpacr.reset] := ⟨_, rfl, rfl, rfl, rfl⟩

/-- P1, step 2. -/
theorem test_mrcA32_reads_back :
    ∃ s', exec (.mrcA32 .al 1#4) (machineWith sec (stored false (.known false) 3 3) 1 0xDEADBEEF) = .next s'
      ∧ s'.readReg 1 = 0x00F00000 ∧ s'.pc = 4 := ⟨_, rfl, rfl, rfl⟩

/-- P2, steps 1 and 2, in T32. -/
theorem test_mcrT32_ignores_withheld :
    ∃ s', exec (.mcrT32 0#4) (machineWith (ns32 false true false) (stored false (.known false) 0 0) 0 0x00F00000) = .next s'
      ∧ s'.cpacr = stored false (.known false) 0 0 := ⟨_, rfl, rfl⟩

theorem test_mrcT32_reads_override :
    ∃ s', exec (.mrcT32 1#4) (machine (ns32 false true false) (stored false (.known false) 0 0)) = .next s'
      ∧ s'.readReg 1 = 0x80000000 := ⟨_, rfl, rfl⟩

/-- P4. -/
theorem test_el0_is_undefined :
    exec (.mrcA32 .al 1#4) (machine (atEl .el0 sec) (stored false (.known false) 3 3))
      = .fault (.undefined (.instr (.mrcA32 .al 1#4))) := rfl

/-- P5, variant a. -/
theorem test_hypervisor_traps :
    exec (.mcrA32 .al 0#4) (machineWith (column .el1 true false false false false true false false false false)
      (stored false (.known false) 0 0) 0 0x00F00000) = .fault (.hypTrap 3 (.instr (.mcrA32 .al 0#4))) := rfl

/-- A word from the opcode table placed where the reset machine fetches runs at its first step. -/
theorem test_first_instruction_after_reset :
    ∃ s', step (State.reset.withFetchWord 32 0xEE010F50) = .next s' ∧ s'.cpacr = stored false (.known false) 0 0
      ∧ s'.pc = 4 := ⟨_, rfl, rfl, rfl⟩

/-! ## Witnesses: concrete states and operands that meet the hypotheses of each statement, clause by clause -/

theorem witness_DecodeOfEncodeIsTheInstruction :
    (Instr.mrcA32 .al 14#4).wf = true ∧ (Instr.mcrA32 .eq 0#4).wf = true ∧ (Instr.mrcT32 12#4).wf = true
      ∧ (Instr.mcrT32 14#4).wf = true := by decide

theorem witness_WordsOfOtherRegistersAreRefused :
    ¬ ((0xEE110F10#32).extractLsb' 8 4 = 0b1111#4 ∧ (0xEE110F10#32).extractLsb' 21 3 = 0b000#3
      ∧ (0xEE110F10#32).extractLsb' 16 4 = 0b0001#4 ∧ (0xEE110F10#32).extractLsb' 0 4 = 0b0000#4
      ∧ (0xEE110F10#32).extractLsb' 5 3 = 0b010#3) := by decide

/-- The part of the PE outside CPACR that a Warm reset or a gated instruction may leave, at a level. -/
def pe (el : ExceptionLevel) : Pe :=
  { regs := Vector.replicate 15 7#32, pc := 64, flags := State.reset.flags, ctx := atEl el sec }

/-- A machine whose next step takes an input. -/
def taking (e : Input) (s : State) : State := { s with inputs := [e] }

theorem witness_WarmResetStepResetsTheStorage :
    (taking (.warmReset (pe .el1)) (machine sec (stored true (.known true) 3 3))).inputs = .warmReset (pe .el1) :: [] := rfl

theorem witness_WarmResetLeavesTheRestToTheEnvironment :
    (taking (.warmReset (pe .el0)) { machine sec Cpacr.reset with pending := [stored true .unknown 3 3] }).inputs
      = .warmReset (pe .el0) :: [] := rfl

/-- A machine with a program of one word at `pc`. -/
def running (set : InstrSet) (w : Word) (ctx : Context) (S : Cpacr) : State :=
  { machine { ctx with iset := set } S with memory := Memory.writeBytes [] 0 (bytesOfWord set w) }

theorem witness_StepKeepsTheInvariant :
    Inv (running .a32 0xEE010F50 sec (stored false .unknown 3 3))
      ∧ (∃ s', step (running .a32 0xEE010F50 sec (stored false .unknown 3 3)) = .next s')
      ∧ Inv (taking (.storeByte 9 5#8) State.reset) ∧ ∃ s', step (taking (.storeByte 9 5#8) State.reset) = .next s' := by
  refine ⟨⟨by decide, by decide, ?_, nofun⟩, ⟨_, rfl⟩, ⟨by decide, by decide, ?_, nofun⟩, ⟨_, rfl⟩⟩ <;> intro S h <;> cases h

theorem witness_StepKeepsParametersAndProgram :
    (∃ s', step (running .t32 0xEE110F50 sec Cpacr.reset) = .next s')
      ∧ ∃ s', step (taking (.storeByte 0 1#8) State.reset) = .next s' := ⟨⟨_, rfl⟩, ⟨_, rfl⟩⟩

theorem witness_StorageChangesOnlyByTheNamedEvents :
    (∃ s', step (running .a32 0xEE010F50 sec (stored true (.known true) 3 3)) = .next s'
        ∧ s'.cpacr ≠ stored true (.known true) 3 3)
      ∧ (∃ s', step (taking (.warmReset (pe .el3)) (machine sec (stored true (.known true) 3 3))) = .next s'
        ∧ s'.cpacr ≠ stored true (.known true) 3 3)
      ∧ ∃ s', step (taking (.cpacrEl1Write (stored true (.known true) 3 3)) (machine sec Cpacr.reset)) = .next s'
        ∧ s'.cpacr ≠ Cpacr.reset := ⟨⟨_, rfl, by decide⟩, ⟨_, rfl, by decide⟩, ⟨_, rfl, by decide⟩⟩

theorem witness_StepRunsTheDecodedInstruction :
    RunsInstruction (running .a32 0xEE110F50 sec Cpacr.reset) (running .a32 0xEE110F50 sec Cpacr.reset)
      ∧ RunsInstruction (taking .proceed (running .a32 0xEE110F50 sec Cpacr.reset)) (running .a32 0xEE110F50 sec Cpacr.reset)
      ∧ Memory.read (running .a32 0xEE110F50 sec Cpacr.reset).memory 0 = some 0x50#8
      ∧ Memory.read (running .a32 0xEE110F50 sec Cpacr.reset).memory 1 = some 0x0F#8
      ∧ Memory.read (running .a32 0xEE110F50 sec Cpacr.reset).memory 2 = some 0x11#8
      ∧ Memory.read (running .a32 0xEE110F50 sec Cpacr.reset).memory 3 = some 0xEE#8
      ∧ decode .a32 [0x50#8, 0x0F#8, 0x11#8, 0xEE#8] = .ok (.mrcA32 .al 0#4, []) :=
  ⟨.inl ⟨rfl, rfl⟩, .inr ⟨[], rfl, rfl⟩, rfl, rfl, rfl, rfl, rfl⟩

theorem witness_StepStopsWhereNothingDecodes :
    RunsInstruction (running .a32 0xEE110F10 sec Cpacr.reset) (running .a32 0xEE110F10 sec Cpacr.reset)
      ∧ (running .a32 0xEE110F10 sec Cpacr.reset).fetchBytes = .ok [0x10#8, 0x0F#8, 0x11#8, 0xEE#8]
      ∧ (∃ r, decode .a32 [0x10#8, 0x0F#8, 0x11#8, 0xEE#8] = .error r)
      ∧ RunsInstruction State.reset State.reset ∧ Memory.read State.reset.memory 0 = none
      ∧ (∀ j, j < 3 → Memory.read [(0, 0x50#8), (1, 0x0F#8), (2, 0x11#8)] j ≠ none)
      ∧ Memory.read [(0, 0x50#8), (1, 0x0F#8), (2, 0x11#8)] 3 = none :=
  ⟨.inl ⟨rfl, rfl⟩, rfl, ⟨_, rfl⟩, .inl ⟨rfl, rfl⟩, rfl, by decide, rfl⟩

theorem witness_CompletedInstructionsMoveOnAndLeaveTheRest :
    (∃ s', exec (.mrcA32 .al 14#4) (machine sec Cpacr.reset) = .next s')
      ∧ ∃ s', exec (.mcrT32 0#4) (machine sec Cpacr.reset) = .next s' := ⟨⟨_, rfl⟩, ⟨_, rfl⟩⟩

/-- The first and the last register, with each of the three allowed levels. -/
theorem witness_MrcA32CompletesWithADirectRead :
    ((0 : Fin 15).val = (0#4).toNat ∧ (14 : Fin 15).val = (14#4).toNat ∧ condPasses .ne State.reset.flags = true)
      ∧ AccessAllowed ref sec ∧ AccessAllowed ref (atEl .el2 sec) ∧ AccessAllowed ref (atEl .el1 sec) :=
  ⟨by decide, by decide, by decide, by decide⟩

theorem witness_MrcT32CompletesWithADirectRead :
    (12 : Fin 15).val = (12#4).toNat ∧ (14 : Fin 15).val = (14#4).toNat ∧ 12#4 ≠ 13#4 ∧ 14#4 ≠ 13#4
      ∧ (∀ c, ({ sec with itCond := some .ne } : Context).itCond = some c → condPasses c State.reset.flags = true)
      ∧ (∀ c, sec.itCond = some c → condPasses c State.reset.flags = true) ∧ AccessAllowed ref (ns32 false true true) := by
  refine ⟨by decide, by decide, by decide, by decide, ?_, nofun, by decide⟩
  rintro c ⟨⟩
  rfl

theorem witness_McrA32CompletesWithADirectWrite :
    (0 : Fin 15).val = (0#4).toNat ∧ condPasses .al State.reset.flags = true ∧ AccessAllowed ref sec
      ∧ WritesNoRes0 ref ((machineWith sec Cpacr.reset 0 0x90F00000).readReg 0)
      ∧ ref.syncModel = .untilSync ∧ WritesNoRes0 { ref with syncModel := .immediate } 0x90F00000#32 := by decide

theorem witness_McrT32CompletesWithADirectWrite :
    (12 : Fin 15).val = (12#4).toNat ∧ 12#4 ≠ 13#4
      ∧ (∀ c, sec.itCond = some c → condPasses c State.reset.flags = true) ∧ AccessAllowed ref sec
      ∧ WritesNoRes0 ref ((machineWith sec Cpacr.reset 12 0x00500000).readReg 12) := by
  refine ⟨by decide, by decide, nofun, by decide, by decide⟩

theorem witness_McrWritesEachFieldUnderItsRule :
    (Instr.mcrA32 .al 0#4).direction = .write ∧ (0 : Fin 15).val = (Instr.mcrA32 .al 0#4).rt.toNat
      ∧ condPasses (instrCondition (.mcrA32 .al 0#4) sec) State.reset.flags = true
      ∧ (∃ s', exec (.mcrA32 .al 0#4) (machineWith sec Cpacr.reset 0 0x90F00000) = .next s')
      ∧ ∃ s', exec (.mcrA32 .al 0#4)
        { machineWith sec Cpacr.reset 0 0xFFFFFFFF with config := { ref with res0Readback := true } } = .next s' :=
  ⟨rfl, rfl, rfl, ⟨_, rfl⟩, ⟨_, rfl⟩⟩

/-- One bit below and one bit in the fields that are there, and the whole word. -/
theorem witness_McrIsRefusedExactlyForOnesInRes0 :
    (Instr.mcrA32 .al 1#4).direction = .write ∧ (Instr.mcrA32 .al 1#4).wf = true
      ∧ (1 : Fin 15).val = (Instr.mcrA32 .al 1#4).rt.toNat
      ∧ condPasses (instrCondition (.mcrA32 .al 1#4) sec) State.reset.flags = true ∧ AccessAllowed ref sec
      ∧ ¬ WritesNoRes0 ref ((machineWith sec Cpacr.reset 1 0x00080000).readReg 1)
      ∧ WritesNoRes0 ref ((machineWith sec Cpacr.reset 1 0x00100000).readReg 1) := by decide

theorem witness_FailedConditionIsANoOp :
    (Instr.mcrA32 .eq 0#4).wf = true ∧ condPasses (instrCondition (.mcrA32 .eq 0#4) sec) State.reset.flags = false
      ∧ (Instr.mrcT32 0#4).wf = true
      ∧ condPasses (instrCondition (.mrcT32 0#4) { sec with itCond := some .eq }) State.reset.flags = false := by decide

theorem witness_OnlyAdmittedRegistersRun :
    (Instr.mrcA32 .al 13#4).rt ≠ 15#4 ∧ ((Instr.mrcA32 .al 13#4).set = .t32 → (Instr.mrcA32 .al 13#4).rt ≠ 13#4)
      ∧ (Instr.mcrT32 14#4).rt ≠ 15#4 ∧ ((Instr.mcrT32 14#4).set = .t32 → (Instr.mcrT32 14#4).rt ≠ 13#4) := by decide

theorem witness_T32CompletesAsA32UnderTheSameCondition :
    14#4 ≠ 13#4 ∧ ({ sec with itCond := some Cond.ne } : Context).itCond = some .ne
      ∧ ∃ s', exec (.mrcT32 14#4) (machine { sec with itCond := some .ne } Cpacr.reset) = .next s' :=
  ⟨by decide, rfl, ⟨_, rfl⟩⟩

theorem witness_AccessFromEl0IsUndefined :
    (Instr.mcrT32 0#4).wf = true ∧ condPasses (instrCondition (.mcrT32 0#4) (atEl .el0 sec)) State.reset.flags = true
      ∧ (atEl .el0 sec).el = .el0 := by decide

theorem witness_AbsentRegisterAccessIsUndefined :
    (Instr.mrcA32 .al 0#4).wf = true ∧ condPasses (instrCondition (.mrcA32 .al 0#4) sec) State.reset.flags = true
      ∧ ({ ref with featAA32EL1 := false } : Config).featAA32EL1 = false := by decide

/-- AC14, AC4, AC5, AC12 and AC11, in the order of the clauses. -/
theorem witness_AccessFromEl1TakesByPriority :
    ((Instr.mrcA32 .al 0#4).wf = true ∧ condPasses .al State.reset.flags = true ∧ ref.featAA32EL1 = true)
      ∧ El3ControlsAccess ref (column .el1 true true false false true false true true true true)
      ∧ (¬ (El3ControlsAccess ref (column .el1 true true true false false false true false false false)
          ∧ (column .el1 true true true false false false true false false false).el3SDDUndefPriority = true)
        ∧ El2AArch64TrapsAccess ref (column .el1 true true true false false false true false false false))
      ∧ (¬ (El3ControlsAccess ref (column .el1 true false false true false false false false false false)
          ∧ (column .el1 true false false true false false false false false false).el3SDDUndefPriority = true)
        ∧ El2AArch32TrapsAccess ref (column .el1 true false false true false false false false false false))
      ∧ (¬ El2AArch64TrapsAccess ref (column .el1 false true false false false false true true false true)
        ∧ ¬ El2AArch32TrapsAccess ref (column .el1 false true false false false false true true false true)
        ∧ El3ControlsAccess ref (column .el1 false true false false false false true true false true))
      ∧ El3ControlsAccess ref (column .el1 false true false false false false true true false false) :=
  ⟨by decide, by decide, by decide, by decide, by decide, by decide⟩

/-- AC19 and AC18. -/
theorem witness_AccessFromEl2IsStoppedOnlyByEl3 :
    (Instr.mcrA32 .al 0#4).wf = true ∧ (0 : Fin 15).val = (Instr.mcrA32 .al 0#4).rt.toNat
      ∧ condPasses .al State.reset.flags = true ∧ ref.featAA32EL1 = true
      ∧ El3ControlsAccess ref (column .el2 true false false false false false true true false false)
      ∧ ¬ El3ControlsAccess ref (column .el2 true false true true true true false false false false)
      ∧ WritesNoRes0 ref ((machineWith (atEl .el2 sec) Cpacr.reset 0 0x00F00000).readReg 0) := by decide

/-- AC22. -/
theorem witness_AccessFromEl3IsNeverTrapped :
    (Instr.mrcT32 14#4).wf = true ∧ (14 : Fin 15).val = (Instr.mrcT32 14#4).rt.toNat
      ∧ condPasses (instrCondition (.mrcT32 14#4) (column .el3 true false true true true true false true true true))
        State.reset.flags = true
      ∧ ref.featAA32EL1 = true ∧ (column .el3 true false true true true true false true true true).el = .el3
      ∧ WritesNoRes0 ref 0x00F00000#32 := by decide

/-- AC5. -/
theorem witness_HypTrapIsRaisedOnlyByEl2AArch32 :
    exec (.mrcA32 .al 0#4) (machine (column .el1 true false false true false false false false false false) Cpacr.reset)
      = .fault (.hypTrap 0x03 (.instr (.mrcA32 .al 0#4))) := rfl

/-- AC6. -/
theorem witness_TrapToEl2IsRaisedOnlyByEl2AArch64 :
    exec (.mcrT32 0#4) (machine (column .el1 true true false false true false true false false false) Cpacr.reset)
      = .fault (.sysAccessTrap .el2 0x03 (.instr (.mcrT32 0#4))) := rfl

/-- AC11, AC19, AC20 and AC12. -/
theorem witness_TrapToEl3IsRaisedOnlyByTheEl3Control :
    exec (.mrcA32 .al 0#4) (machine (column .el1 false true false false false false true true false false) Cpacr.reset)
        = .fault (.sysAccessTrap .el3 0x03 (.instr (.mrcA32 .al 0#4)))
      ∧ exec (.mcrA32 .al 0#4) (machine (column .el2 true false false false false false true true false false) Cpacr.reset)
        = .fault (.sysAccessTrap .el3 0x03 (.instr (.mcrA32 .al 0#4)))
      ∧ El3ControlsAccess ref (column .el2 true false false false false false true true false true)
      ∧ El3ControlsAccess ref (column .el1 false true false false false false true true false true) :=
  ⟨rfl, rfl, by decide, by decide⟩

/-- Each exception is one that both directions take (AC2, AC5, AC19). -/
theorem witness_ReadAndWriteTakeTheSameExceptions :
    exec (.mrcA32 .al 0#4) (machine (atEl .el0 sec) Cpacr.reset) = .fault (.undefined (.instr (.mrcA32 .al 0#4)))
      ∧ exec (.mcrT32 0#4) (machine (column .el1 true false false true false false false false false false) Cpacr.reset)
        = .fault (.hypTrap 0x03 (.instr (.mcrT32 0#4)))
      ∧ exec (.mrcT32 0#4) (machine (column .el2 true false false false false false true true false false) Cpacr.reset)
        = .fault (.sysAccessTrap .el3 0x03 (.instr (.mrcT32 0#4))) := ⟨rfl, rfl, rfl⟩

/-- Two values that differ in the reserved bits alone, without RES0_READBACK. -/
theorem witness_LayoutPlacesEveryField :
    0x90F00000#32 &&& 0x90F00000#32 = 0xFFFFFFFF#32 &&& 0x90F00000#32
      ∧ (ref.res0Readback = true → 0x90F00000#32 &&& 0x6F0FFFFF#32 = 0xFFFFFFFF#32 &&& 0x6F0FFFFF#32) := by decide

theorem witness_Cp11ReadsUnknownWhenItDiffersFromCp10 :
    (NonSecureView ref (ns32 false false false) ∧ (ns32 false false false).nsacrCp10 = false)
      ∧ ({ ref with haveFPASIMD := false } : Config).haveFPASIMD = false
      ∧ ref.haveFPASIMD = true ∧ ¬ (NonSecureView ref sec ∧ sec.nsacrCp10 = false)
      ∧ (stored false .unknown 0 3).cp11 ≠ (stored false .unknown 0 3).cp10
      ∧ (stored false .unknown 3 3).cp11 = (stored false .unknown 3 3).cp10 := by decide

/-- P6: two reads of one storage, each with numbers of its own. -/
theorem witness_EveryEvaluationDrawsAfresh :
    (∃ s1 s2, exec (.mrcA32 .al 1#4) (machine sec (stored false (.known false) 0 3)) = .next s1
        ∧ exec (.mrcA32 .al 3#4) s1 = .next s2 ∧ s1.draws = 3 ∧ s2.draws = 6)
      ∧ ∃ s', step (taking (.gated .floatingPoint (pe .el3)) (machine (atEl .el2 sec) Cpacr.reset)) = .next s' :=
  ⟨⟨_, _, rfl, rfl, rfl, rfl⟩, ⟨_, rfl⟩⟩

/-- P3, whose write and read are in two Security states. -/
theorem witness_LaterReadGivesTheValueWritten :
    ref.haveFPASIMD = true ∧ ref.haveTraceSysRegs = true ∧ ref.asedisRW = true ∧ ref.trcdisRW = true
      ∧ NoOverride ref (ns32 true false false) ∧ NoOverride ref sec
      ∧ (0x80500000#32).extractLsb' 22 2 = (0x80500000#32).extractLsb' 20 2
      ∧ ∃ s1 s2, exec (.mcrA32 .al 2#4) (machineWith (ns32 true false false) (stored false (.known false) 3 3) 2 0x80500000)
          = .next s1 ∧ exec (.mrcA32 .al 1#4) { s1 with ctx := sec } = .next s2 ∧ s2.readReg 1 = 0x80500000 :=
  ⟨rfl, rfl, rfl, rfl, by decide, by decide, by decide, ⟨_, _, rfl, rfl, rfl⟩⟩

theorem witness_NonSecureStateCannotEnableWithheldFp :
    NonSecureView ref (ns32 false true false) ∧ (ns32 false true false).nsacrCp10 = false
      ∧ GatedInstr.fpSystemRegisterAccess .fpexc ≠ .traceSystemRegisterAccess ∧ GatedPrivilege ref (ns32 false true false)
      ∧ GatedPrivilege ref (atEl .el0 (ns32 false true false))
      ∧ ∃ s', exec (.mcrA32 .al 0#4) (machineWith (ns32 false true false) Cpacr.reset 0 0x00F00000) = .next s' :=
  ⟨by decide, rfl, by decide, by decide, by decide, ⟨_, rfl⟩⟩

/-- 41 R82: the class of the cp10 control, by its three items; a trace access is not of it. -/
theorem test_fp_simd_class :
    isFPASIMDAccess .floatingPoint = true ∧ isFPASIMDAccess .advancedSimdOnly = true
      ∧ isFPASIMDAccess (.fpRegisterAccess (.q 15)) = true ∧ isFPASIMDAccess (.fpSystemRegisterAccess .mvfr2) = true
      ∧ isFPASIMDAccess .traceSystemRegisterAccess = false := by decide

/-- A machine about to execute a gated instruction. -/
def gating (g : GatedInstr) (ctx : Context) (S : Cpacr) : State := taking (.gated g (pe .el3)) (machine ctx S)

/-- Each value of cp10 the clauses name, at EL0, EL1 and EL3. -/
theorem witness_Cp10GrantsFpByPrivilege :
    (gating .floatingPoint sec (stored false .unknown 0 0)).pending = [] ∧ GatedPrivilege ref sec
      ∧ GatedPrivilege ref (atEl .el0 sec) ∧ GatedPrivilege ref (atEl .el1 sec) ∧ ref.haveFPASIMD = true
      ∧ ¬ (NonSecureView ref sec ∧ sec.nsacrCp10 = false)
      ∧ GatedInstr.fpSystemRegisterAccess .fpscr ≠ .traceSystemRegisterAccess
      ∧ GatedInstr.advancedSimdOnly ≠ .traceSystemRegisterAccess
      ∧ (stored false .unknown 0 0).cp10 = 0b00#2 ∧ (stored false .unknown 1 1).cp10 = 0b01#2
      ∧ (stored false .unknown 3 3).cp10 = 0b11#2
      ∧ AsedisBehavesAs0 ref sec (stored false .unknown 1 1) ∧ AsedisBehavesAs0 ref sec (stored false .unknown 3 3) := by decide

/-- The machine of the clause on `CP10_RESERVED`, for each choice. -/
theorem witness_ReservedCp10BehavesAsTheChosenOption (c : Cp10Reserved) :
    ({ gating .floatingPoint sec (stored false .unknown 2 2) with config := { ref with cp10Reserved := c } } :
        State).config.cp10Reserved = c
      ∧ (gating .floatingPoint sec (stored false .unknown 2 2)).cpacr.cp10 = 0b10#2
      ∧ GatedPrivilege { ref with cp10Reserved := c } sec ∧ GatedPrivilege { ref with cp10Reserved := c } (atEl .el0 sec)
      ∧ ¬ (NonSecureView { ref with cp10Reserved := c } sec ∧ sec.nsacrCp10 = false)
      ∧ GatedInstr.fpRegisterAccess (.d 31) ≠ .traceSystemRegisterAccess
      ∧ (GatedInstr.fpRegisterAccess (.d 31) ≠ .advancedSimdOnly ∧ AsedisBehavesAs0 ref sec (stored false .unknown 2 2)) := by
  refine ⟨rfl, rfl, ?_, ?_, ?_, by decide, by decide⟩ <;> cases c <;> decide

/-- GT16. -/
theorem witness_NothingIsGatedAtEl2 :
    (gating .advancedSimdOnly (atEl .el2 sec) (stored true (.known true) 0 0)).ctx.el = .el2
      ∧ (gating .advancedSimdOnly (atEl .el2 sec) (stored true (.known true) 0 0)).inputs
        = .gated .advancedSimdOnly (pe .el3) :: [] := ⟨rfl, rfl⟩

/-- GT9, GT7 and GT10. -/
theorem witness_AsedisDisablesOnlyAdvancedSimd :
    ref.haveFPASIMD = true ∧ GatedPrivilege ref (atEl .el0 (ns32 true true false)) ∧ GatedPrivilege ref sec
      ∧ (NonSecureView ref (ns32 true true false) ∧ (ns32 true true false).nsacrNsasedis = true)
      ∧ (ref.asedisRW = true ∧ (stored true .unknown 3 3).asedis = true)
      ∧ (AsedisBehavesAs0 ref sec (stored false .unknown 3 3) ∧ ¬ (NonSecureView ref sec ∧ sec.nsacrCp10 = false))
      ∧ (Cp10Permits ref (atEl .el0 sec) (stored false .unknown 3 3) ∧ Cp10Permits ref sec (stored false .unknown 1 1))
      ∧ Cp10Permits { ref with cp10Reserved := .as01 } sec (stored false .unknown 2 2)
      ∧ Cp10Permits { ref with cp10Reserved := .as11 } (atEl .el0 sec) (stored false .unknown 2 2)
      ∧ GatedInstr.traceSystemRegisterAccess ≠ .advancedSimdOnly := by decide

/-- GT15, GT11, GT12 and GT14. -/
theorem witness_TrcdisTrapsTraceAccesses :
    GatedPrivilege ref sec ∧ sec.el ≠ .el0 ∧ ref.haveTraceSysRegs = true
      ∧ (NonSecureView ref (ns32 false false true) ∧ (ns32 false false true).nsacrNstrcdis = true)
      ∧ GatedPrivilege ref (ns32 false false true)
      ∧ (ref.trcdisRW = true ∧ (stored false (.known true) 0 0).trcdis = .known true)
      ∧ ¬ (NonSecureView ref sec ∧ sec.nsacrNstrcdis = true) ∧ (stored false (.known false) 0 0).trcdis = .known false
      ∧ Cpacr.reset.trcdis = .unknown
      ∧ GatedPrivilege { ref with featETMv4 := false } (atEl .el0 sec)
      ∧ (({ ref with featETMv4 := false } : Config).featETMv4 = false ∧ ref.featETE = false) := by decide

/-- GT13. -/
theorem witness_El0TraceAccessIsUndefined :
    (gating .traceSystemRegisterAccess (atEl .el0 sec) Cpacr.reset).config.featETMv4 = true
      ∧ (gating .traceSystemRegisterAccess (atEl .el0 sec) Cpacr.reset).ctx.el = .el0 := ⟨rfl, rfl⟩

theorem witness_GatingWithoutARuleIsRefused :
    GatedInstr.floatingPoint ≠ .traceSystemRegisterAccess
      ∧ (({ ref with featETMv4 := false } : Config).featETMv4 ≠ true ∧ ref.featETE ≠ true ∧ sec.el ≠ .el0)
      ∧ ((atEl .el0 { sec with el1UsingAArch32 := false }).el = .el0
        ∧ (atEl .el0 { sec with el1UsingAArch32 := false }).el1UsingAArch32 = false)
      ∧ (sec.el ≠ .el2 ∧ ({ ref with featAA32EL1 := false } : Config).featAA32EL1 = false) := by decide

/-- GT1, with an earlier storage still visible. -/
theorem witness_FpIsUndefinedAfterWarmResetUntilCp10IsWritten :
    Cp10Clear { gating .floatingPoint sec Cpacr.reset with pending := [stored true (.known true) 3 0] }
      ∧ GatedPrivilege ref sec ∧ GatedInstr.floatingPoint ≠ .traceSystemRegisterAccess
      ∧ ∃ s', step (running .a32 0xEE010F50 sec Cpacr.reset) = .next s' ∧ s'.cpacr.cp10 = 0b00#2 :=
  ⟨by decide, by decide, by decide, ⟨_, rfl, rfl⟩⟩

/-- P1, step 1, under each SYNC_MODEL, and with an earlier storage still visible. -/
theorem witness_WriteIsVisibleAsTheSyncModelSays :
    (Instr.mcrA32 .al 0#4).direction = .write
      ∧ condPasses (instrCondition (.mcrA32 .al 0#4) sec) State.reset.flags = true
      ∧ (∃ s', exec (.mcrA32 .al 0#4) (machineWith sec Cpacr.reset 0 0x00F00000) = .next s'
        ∧ ∃ s2, step { s' with inputs := .contextSync :: [] } = .next s2)
      ∧ (∃ s', exec (.mcrA32 .al 0#4)
        { machineWith sec Cpacr.reset 0 0x00F00000 with pending := [stored true (.known true) 1 1] } = .next s')
      ∧ ∃ s', exec (.mcrA32 .al 0#4)
        { machineWith sec Cpacr.reset 0 0x00F00000 with config := { ref with syncModel := .immediate } } = .next s' :=
  ⟨rfl, rfl, ⟨_, rfl, _, rfl⟩, ⟨_, rfl⟩, ⟨_, rfl⟩⟩

/-- P1 within the window: the current storage and the pending one are visible, and cp10 of one permits and of the other denies;
under `immediate` only the current one is. -/
theorem witness_EachControlConsultsAVisibleStorage :
    ∃ s : State, s = { gating .floatingPoint sec (stored false (.known false) 3 3) with pending := [Cpacr.reset] }
      ∧ GatedPrivilege s.config s.ctx ∧ Visible s (stored false (.known false) 3 3) ∧ Visible s Cpacr.reset
      ∧ ¬ Cp10Denies s.config s.ctx (stored false (.known false) 3 3) false ∧ Cp10Denies s.config s.ctx Cpacr.reset false
      ∧ s.inputs = .gated .floatingPoint (pe .el3) :: []
      ∧ ¬ (GatedInstr.floatingPoint = .traceSystemRegisterAccess ∧ s.ctx.el = .el0
        ∧ (s.config.featETMv4 = true ∨ s.config.featETE = true))
      ∧ ¬ Visible { s with config := { s.config with syncModel := .immediate } } Cpacr.reset := by
  refine ⟨_, rfl, ?_⟩
  decide

theorem witness_ExternalDebugAccessIsNeverTrapped :
    (taking .externalDebugTraceAccess (machine sec (stored true (.known true) 0 0))).inputs
      = .externalDebugTraceAccess :: [] := rfl

theorem witness_InputsChangeOnlyWhatTheyName :
    (taking (.setContext ns64) State.reset).inputs = .setContext ns64 :: []
      ∧ (taking .contextSync State.reset).inputs = .contextSync :: []
      ∧ (taking (.storeByte 0 0xEE#8) State.reset).inputs = .storeByte 0 0xEE#8 :: [] := ⟨rfl, rfl, rfl⟩

theorem witness_WriteAsCpacrEl1IsReadByMrc :
    ref.syncModel = .untilSync ∧ ({ ref with syncModel := .immediate } : Config).syncModel = .immediate
      ∧ ∃ s1 s2, step (taking (.cpacrEl1Write (stored true (.known false) 1 1)) State.reset) = .next s1
      ∧ exec (.mrcA32 .al 14#4) s1 = .next s2 ∧ s2.readReg 14 = 0x80500000 := ⟨rfl, rfl, _, _, rfl, rfl, rfl⟩

theorem witness_FetchWordRunsTheTableWord :
    State.reset.inputs = [] ∧ decodeTableWord 32 0xEE011F50 = some (.mcrT32 1#4) := ⟨rfl, rfl⟩

end Sys2Proof.Tests
end

