-- ==== Sys2Proof/Proofs/Scope.lean ====
section
/-! PROOFS. The family 00_scope: CPACR has no effect at EL2 (00 R3, 41 R80), and a write under the name CPACR_EL1 is a write of
the storage that MRC reads (00 R5). -/

namespace Sys2Proof.Machine

/-! ## Nothing is gated at PL2: each control in turn, then the gate -/

/-- cp10 gates nothing at PL2, whatever its value and the choice for 0b10 (41 R81, R83). -/
@[simp] theorem cp10Undefined_pl2 (choice : Cp10Reserved) (e : BitVec 2) (draw : Bool) :
    cp10Undefined choice e .pl2 draw = false := rfl

@[simp] theorem asedisUndefined_pl2 (a : Bool) (g : GatedInstr) : asedisUndefined a .pl2 g = false := rfl

@[simp] theorem trcdisUndefined_pl2 (d : Bool) (g : GatedInstr) : trcdisUndefined d .pl2 g = false := rfl

/-- At EL2 no control makes an instruction UNDEFINED, whichever storages the consultations see (41 R80). -/
theorem cpacrMakesUndefined_of_el2 (s : State) (g : GatedInstr) (u : GateDraws) (h : s.ctx.el = .el2) :
    s.cpacrMakesUndefined g u = false := by
  have hp : privilegeLevel s.ctx.el = .pl2 := by rw [h]; rfl
  simp [State.cpacrMakesUndefined, hp]

/-- R88's features concern EL0 alone. -/
theorem el0TraceUndefined_of_ne_el0 (cfg : Config) (ctx : Context) (g : GatedInstr) (h : ctx.el ≠ .el0) :
    el0TraceUndefined cfg ctx g = false := by
  simp [el0TraceUndefined, h]

/-- At EL2 the rule that CPACR has no effect needs neither FEAT_AA32EL1 nor an EL1 that is using AArch32. -/
theorem gatingSpecified_of_el2 (cfg : Config) (ctx : Context) (h : ctx.el = .el2) : gatingSpecified cfg ctx = true := by
  simp [gatingSpecified, h, privilegeLevel]

theorem gate_eq_permitted_of_el2 (s : State) (g : GatedInstr) (h : s.ctx.el = .el2) : s.gate g = .permitted := by
  have hne : s.ctx.el ≠ .el0 := by simp [h]
  exact (gate_eq_permitted_iff s g).mpr
    ⟨el0TraceUndefined_of_ne_el0 _ _ g hne, gatingSpecified_of_el2 _ _ h, cpacrMakesUndefined_of_el2 s g _ h⟩

/-- Settles O44: the gate permits every class at EL2, and a permitted instruction leaves what the environment supplies. -/
theorem nothingIsGatedAtEl2 : Obligations.NothingIsGatedAtEl2 := by
  intro s g p rest hi hel
  exact ⟨_, step_gated_permitted s g p rest hi (gate_eq_permitted_of_el2 s g hel),
    rfl, rfl, rfl, rfl, rfl, rfl, rfl, rfl, rfl⟩

/-! ## A write under the name CPACR_EL1 -/

/-- What the implementation can hold of a storage has the storage's four named fields (10 R12). -/
@[simp] theorem cpacrHeld_asedis (cfg : Config) (S : Cpacr) : (cpacrHeld cfg S).asedis = S.asedis := rfl
@[simp] theorem cpacrHeld_trcdis (cfg : Config) (S : Cpacr) : (cpacrHeld cfg S).trcdis = S.trcdis := rfl
@[simp] theorem cpacrHeld_cp11 (cfg : Config) (S : Cpacr) : (cpacrHeld cfg S).cp11 = S.cp11 := rfl
@[simp] theorem cpacrHeld_cp10 (cfg : Config) (S : Cpacr) : (cpacrHeld cfg S).cp10 = S.cp10 := rfl

/-- The reserved bits are held at their positions, and only with RES0_READBACK (10 R12). -/
theorem cpacrHeld_res0 (cfg : Config) (S : Cpacr) :
    (cpacrHeld cfg S).res0 = if cfg.res0Readback = true then S.res0 &&& 0x6F0FFFFF#32 else 0#32 := by
  rw [← alwaysReserved_eq]
  rfl

/-- Under `until_sync` a write leaves the storage from before it visible (70 R126). -/
theorem setCpacr_pending_of_untilSync (s : State) (S : Cpacr) (h : s.config.syncModel = .untilSync) :
    (s.setCpacr S).pending = s.pending ++ [s.cpacr] := by
  simp [h]

/-- Under `immediate` a write leaves no earlier storage visible (70 R126). -/
theorem setCpacr_pending_of_immediate (s : State) (S : Cpacr) (h : s.config.syncModel = .immediate) :
    (s.setCpacr S).pending = s.pending := by
  simp [h]

/-- A step that takes a write under the name CPACR_EL1 (00 R5, 60 R112). -/
theorem step_cpacrEl1Write (s : State) (S : Cpacr) (rest : List Input) (hi : s.inputs = .cpacrEl1Write S :: rest) :
    step s = .next (State.setCpacr { s with inputs := rest } (cpacrHeld s.config S)) :=
  step_cons s _ rest hi

/-- An MRC whose condition passes and that completes puts a direct read of the storage in its register (40 R60). -/
theorem readReg_of_exec_read_next {i : Instr} {s s' : State} {t : Fin 15} (h : exec i s = .next s')
    (hd : i.direction = .read) (ht : t.val = i.rt.toNat) (hc : condPasses (instrCondition i s.ctx) s.flags = true) :
    s'.readReg t = cpacrRead s.config s.ctx s.cpacr s.readDraws := by
  rw [exec_read_next i s s' t hd ht hc h, State.readReg_readCpacrInto]

/-- Settles O55: the step is `setCpacr` of what the implementation can hold of `S`, and a direct read sees no difference
between that and `S`. -/
theorem writeAsCpacrEl1IsReadByMrc : Obligations.WriteAsCpacrEl1IsReadByMrc := by
  intro s S rest hi
  have hstep := step_cpacrEl1Write s S rest hi
  have huntil := setCpacr_pending_of_untilSync { s with inputs := rest } (cpacrHeld s.config S)
  have himmediate := setCpacr_pending_of_immediate { s with inputs := rest } (cpacrHeld s.config S)
  refine ⟨_, hstep, cpacrHeld_asedis _ _, cpacrHeld_trcdis _ _, cpacrHeld_cp11 _ _, cpacrHeld_cp10 _ _,
    cpacrHeld_res0 _ _, huntil, himmediate, rfl, rfl, rfl, rfl, rfl, rfl, rfl, rfl, ?_⟩
  intro i t s2 hd ht hc h2
  have hread := readReg_of_exec_read_next h2 hd ht hc
  exact ⟨_, hread.trans (cpacrRead_cpacrHeld s.config s.ctx S _)⟩

end Sys2Proof.Machine
end

/-! PROOFS. The family 10_state: the fields of CPACR as they are read and written (10 R10 to R29), the storage that instructions
and inputs leave (R12, R38), and the draws of an UNKNOWN value (R19, R23). The statements about whole steps rest on one inversion
lemma, `step_next_cases`, and on one lemma per field of a direct write, `cpacrWrite_asedis` to `cpacrWrite_res0`. -/

namespace Sys2Proof.Machine

/-! ## What a step can do -/

/-- The state that executes the instruction differs from the step's in the schedule alone. -/
theorem RunsInstruction.eq_with_inputs {s s0 : State} (h : RunsInstruction s s0) :
    ∃ l, s0 = { s with inputs := l } := by
  obtain ⟨-, rfl⟩ | ⟨rest, -, rfl⟩ := h
  · exact ⟨s0.inputs, rfl⟩
  · exact ⟨rest, rfl⟩

theorem step_of_runsInstruction {s s0 : State} (h : RunsInstruction s s0) : step s = runInstruction s0 := by
  obtain ⟨hi, rfl⟩ | ⟨rest, hi, rfl⟩ := h
  · exact step_nil _ hi
  · exact step_cons s _ rest hi

theorem runInstruction_of_decode {s : State} {bytes tail : List Byte} {i : Instr} (hb : s.fetchBytes = .ok bytes)
    (hd : decode s.ctx.iset bytes = .ok (i, tail)) : runInstruction s = exec i s := by
  simp [runInstruction, hb, hd]

/-- The state an entry of the schedule leaves where it is taken and answers a next state. `proceed` does nothing of its own: the
instruction that it lets run is `exec`'s. -/
def Input.effect : Input → State → State
  | .proceed, s => s
  | .setContext ctx, s => { s with ctx := ctx }
  | .contextSync, s => s.synchronise
  | .warmReset p, s => s.warmReset p
  | .gated _ after, s => (s.setPe after).countDraws gateDrawCount
  | .externalDebugTraceAccess, s => s
  | .cpacrEl1Write S, s => s.setCpacr (cpacrHeld s.config S)
  | .storeByte a v, s => { s with memory := Memory.write s.memory a v }

/-- Everything an entry of the schedule other than `proceed` can answer a next state with. -/
theorem runInput_next {e : Input} {s s' : State} (hp : e ≠ .proceed) (h : runInput e s = .next s') : s' = e.effect s := by
  cases e with
  | proceed => exact absurd rfl hp
  | gated g after => exact (execGated_next g after s s' h).2
  | setContext | contextSync | warmReset | externalDebugTraceAccess | cpacrEl1Write | storeByte =>
    exact (Host.Outcome.next.inj h).symm

/-- A step that answers a next state ran an instruction, at the state with its schedule entry taken, or took an entry of the
schedule. -/
theorem step_next_cases {s s' : State} (h : step s = .next s') :
    (∃ i l, exec i { s with inputs := l } = .next s')
      ∨ ∃ e rest, s.inputs = e :: rest ∧ s' = e.effect { s with inputs := rest } := by
  obtain ⟨s0, -, i, -, hrun, -, -, he⟩ | ⟨e, rest, hi, hp, he⟩ := step_next s s' h
  · obtain ⟨l, rfl⟩ := hrun.eq_with_inputs
    exact .inl ⟨i, l, he⟩
  · exact .inr ⟨e, rest, hi, runInput_next hp he⟩

/-! ## The invariant -/

/-- A write of a storage that the implementation can hold keeps the invariant: under `until_sync` it adds the current storage to
those that stay visible, under `immediate` nothing (70 R126). -/
theorem Inv.setCpacr {s : State} {S : Cpacr} (h : Inv s) (hS : StorageHeld s.config S) : Inv (s.setCpacr S) := by
  obtain ⟨hmem, hcur, hpend, himm⟩ := h
  refine ⟨hmem, hS, ?_⟩
  cases hm : s.config.syncModel with
  | immediate =>
    rw [setCpacr_pending_of_immediate s S hm]
    exact ⟨hpend, himm⟩
  | untilSync =>
    rw [setCpacr_pending_of_untilSync s S hm]
    refine ⟨fun T hT => ?_, by simp [hm]⟩
    obtain hT | hT := List.mem_append.mp hT
    · exact hpend T hT
    · rw [List.mem_singleton.mp hT]
      exact hcur

/-- The storage after a Warm reset has no reserved bit set. -/
theorem storageHeld_reset (cfg : Config) : StorageHeld cfg Cpacr.reset :=
  ⟨rfl, fun _ => rfl⟩

theorem Inv.exec {i : Instr} {s s' : State} (hs : Inv s) (h : Machine.exec i s = .next s') : Inv s' := by
  obtain ⟨t, -, ⟨-, rfl⟩ | ⟨-, -, rfl⟩ | ⟨-, -, -, rfl⟩⟩ := exec_next i s s' h
  · exact hs
  · exact hs
  · have hcur : StorageHeld s.config s.cpacr := hs.2.1
    exact hs.setCpacr (hcur.cpacrWrite s.ctx (s.readReg t))

theorem Inv.effect {s : State} (hs : Inv s) (e : Input) : Inv (e.effect s) := by
  obtain ⟨hmem, hcur, hpend, himm⟩ := hs
  cases e with
  | proceed | setContext | gated | externalDebugTraceAccess => exact ⟨hmem, hcur, hpend, himm⟩
  | contextSync => exact ⟨hmem, hcur, List.forall_mem_nil _, fun _ => rfl⟩
  | warmReset p => exact ⟨hmem, storageHeld_reset _, List.forall_mem_nil _, fun _ => rfl⟩
  | cpacrEl1Write S => exact Inv.setCpacr ⟨hmem, hcur, hpend, himm⟩ (storageHeld_cpacrHeld _ S)
  | storeByte a v => exact ⟨Memory.write_wf _ a v hmem, hcur, hpend, himm⟩

/-- Settles O10: the invariant does not speak of the schedule, and both what an instruction and what an entry of the schedule
leaves keep it. -/
theorem stepKeepsTheInvariant : Obligations.StepKeepsTheInvariant := by
  intro s s' hs h
  obtain ⟨i, l, hexec⟩ | ⟨e, rest, -, rfl⟩ := step_next_cases h
  · exact Inv.exec (s := { s with inputs := l }) hs hexec
  · exact Inv.effect (s := { s with inputs := rest }) hs e

/-! ## Who writes the storage -/

/-- An instruction that changes the storage is an MCR whose condition passes and whose access is allowed (40 R60 to R63). -/
theorem exec_next_cpacr_ne {i : Instr} {s s' : State} (h : exec i s = .next s') (hne : s'.cpacr ≠ s.cpacr) :
    i.direction = .write ∧ condPasses (instrCondition i s.ctx) s.flags = true ∧ AccessAllowed s.config s.ctx := by
  rw [exec_eq] at h
  cases hd : i.direction with
  | read =>
    rw [hd] at h
    obtain ⟨t, -, ⟨-, rfl⟩ | ⟨-, -, rfl⟩⟩ := moveFromCpacr_next _ _ _ _ h
    · exact absurd rfl hne
    · exact absurd rfl hne
  | write =>
    rw [hd] at h
    obtain ⟨t, -, ⟨-, rfl⟩ | ⟨hc, ha, -, -⟩⟩ := moveToCpacr_next _ _ _ _ h
    · exact absurd rfl hne
    · exact ⟨rfl, hc, ha⟩

/-- An entry of the schedule that changes the storage is a Warm reset or a write under the name CPACR_EL1 (60 R112). -/
theorem Input.effect_cpacr_ne {e : Input} {s : State} (hne : (e.effect s).cpacr ≠ s.cpacr) :
    (∃ p, e = .warmReset p) ∨ ∃ S, e = .cpacrEl1Write S := by
  cases e with
  | warmReset p => exact .inl ⟨p, rfl⟩
  | cpacrEl1Write S => exact .inr ⟨S, rfl⟩
  | proceed | setContext | contextSync | gated | externalDebugTraceAccess | storeByte => exact absurd rfl hne

/-- Settles O12: either an instruction ran, and it changed the storage, or an entry of the schedule was taken, and it did. -/
theorem storageChangesOnlyByTheNamedEvents : Obligations.StorageChangesOnlyByTheNamedEvents := by
  intro s s' h hne
  obtain ⟨s0, bytes, i, tail, hrun, hb, hd, hexec⟩ | ⟨e, rest, hi, hp, he⟩ := step_next s s' h
  · obtain ⟨l, rfl⟩ := hrun.eq_with_inputs
    obtain ⟨hw, hc, ha⟩ := exec_next_cpacr_ne hexec hne
    exact .inr (.inr ⟨_, bytes, i, tail, hrun, hb, hd, hw, hc, ha⟩)
  · obtain rfl := runInput_next hp he
    obtain ⟨p, rfl⟩ | ⟨S, rfl⟩ := Input.effect_cpacr_ne (s := { s with inputs := rest }) hne
    · exact .inl ⟨p, rest, hi⟩
    · exact .inr (.inl ⟨S, rest, hi⟩)

/-! ## The effective values and the direct reads, the override written out -/

theorem effAsedis_eq (cfg : Config) (ctx : Context) (S : Cpacr) :
    effAsedis cfg ctx S =
      if cfg.haveFPASIMD = false then false
      else if NonSecureView cfg ctx ∧ ctx.nsacrNsasedis = true then true
      else if cfg.asedisRW = false then false
      else S.asedis := by
  simp only [effAsedis, ← nsAsedisRaowi_iff, Bool.not_eq_true']

theorem readAsedis_eq (cfg : Config) (ctx : Context) (S : Cpacr) (u : ReadDraws) :
    readAsedis cfg ctx S u =
      if cfg.haveFPASIMD = false ∧ NonSecureView cfg ctx ∧ ctx.nsacrNsasedis = true then u.asedis
      else effAsedis cfg ctx S := by
  simp only [readAsedis, ← nsAsedisRaowi_iff, Bool.and_eq_true, Bool.not_eq_true']

/-- Settles O35. -/
theorem asedisReadsAsItBehaves : Obligations.AsedisReadsAsItBehaves := by
  intro cfg ctx S u
  exact ⟨effAsedis_eq cfg ctx S, (cpacrRead_asedis cfg ctx S u).trans (readAsedis_eq cfg ctx S u)⟩

theorem effTrcdis_eq (cfg : Config) (ctx : Context) (S : Cpacr) (draw : Bool) :
    effTrcdis cfg ctx S draw =
      if cfg.haveTraceSysRegs = false then false
      else if NonSecureView cfg ctx ∧ ctx.nsacrNstrcdis = true then true
      else if cfg.trcdisRW = false then false
      else trcdisValue S.trcdis draw := by
  simp only [effTrcdis, ← nsTrcdisRaowi_iff, Bool.not_eq_true']

theorem readTrcdis_eq (cfg : Config) (ctx : Context) (S : Cpacr) (u : ReadDraws) :
    readTrcdis cfg ctx S u =
      if cfg.haveTraceSysRegs = false ∧ NonSecureView cfg ctx ∧ ctx.nsacrNstrcdis = true then u.trcdis
      else effTrcdis cfg ctx S u.trcdis := by
  simp only [readTrcdis, ← nsTrcdisRaowi_iff, Bool.and_eq_true, Bool.not_eq_true']

/-- Settles O36. -/
theorem trcdisReadsAsItBehaves : Obligations.TrcdisReadsAsItBehaves := by
  intro cfg ctx S u draw
  exact ⟨effTrcdis_eq cfg ctx S draw, (cpacrRead_trcdis cfg ctx S u).trans (readTrcdis_eq cfg ctx S u)⟩

theorem readCp11_eq (cfg : Config) (ctx : Context) (S : Cpacr) (u : ReadDraws) :
    readCp11 cfg ctx S u =
      if cfg.haveFPASIMD = false ∨ (NonSecureView cfg ctx ∧ ctx.nsacrCp10 = false) then 0b00#2
      else if S.cp11 ≠ S.cp10 then u.cp11
      else S.cp11 := by
  simp only [readCp11, ← nsFpRazwi_iff, Bool.or_eq_true, Bool.not_eq_true']

/-- Settles O37: the read is the drawn value itself where the stored cp11 and cp10 differ. -/
theorem cp11ReadsUnknownWhenItDiffersFromCp10 : Obligations.Cp11ReadsUnknownWhenItDiffersFromCp10 := by
  intro cfg ctx S
  simp only [cpacrRead_cp11, readCp11_eq]
  refine ⟨fun h u => if_pos h, fun hf hn => ?_⟩
  have hpresent : ¬ (cfg.haveFPASIMD = false ∨ (NonSecureView cfg ctx ∧ ctx.nsacrCp10 = false)) :=
    not_or.mpr ⟨by simp [hf], hn⟩
  simp only [if_neg hpresent]
  constructor
  · intro hne x
    exact ⟨{ asedis := false, trcdis := false, cp11 := x }, if_pos hne⟩
  · intro heq u
    exact if_neg (not_not.mpr heq)

theorem effCp10_eq (cfg : Config) (ctx : Context) (S : Cpacr) :
    effCp10 cfg ctx S =
      if cfg.haveFPASIMD = false then 0b00#2
      else if NonSecureView cfg ctx ∧ ctx.nsacrCp10 = false then 0b00#2
      else S.cp10 := by
  simp only [effCp10, ← nsFpRazwi_iff, Bool.not_eq_true']

/-- Settles O38. -/
theorem cp10ReadsAsItBehaves : Obligations.Cp10ReadsAsItBehaves := by
  intro cfg ctx S u
  exact ⟨effCp10_eq cfg ctx S, cpacrRead_cp10 cfg ctx S u⟩

/-- No field of the layout but a reserved one is read at the always-reserved bits. -/
theorem cpacrRead_and_alwaysReserved (cfg : Config) (ctx : Context) (S : Cpacr) (u : ReadDraws) :
    cpacrRead cfg ctx S u &&& 0x6F0FFFFF#32 = readRes0 cfg S &&& 0x6F0FFFFF#32 := by
  apply BitVec.eq_of_getLsbD_eq
  intro k hk
  simp only [BitVec.getLsbD_and, cpacrRead_getLsbD]
  interval_cases k <;> simp

/-- Settles O39. -/
theorem reservedBitsReadZeroOrBack : Obligations.ReservedBitsReadZeroOrBack := by
  intro cfg ctx S u
  rw [cpacrRead_and_alwaysReserved]
  constructor
  · intro hr
    simp [readRes0, hr]
  · intro hr
    simp [readRes0, hr]

/-! ## The direct write, each field under its write rule (R16, R17, R20, R24, R27) -/

section cpacrWrite

variable (cfg : Config) (ctx : Context) (S : Cpacr) (v : Word)

theorem cpacrWrite_asedis :
    (cpacrWrite cfg ctx S v).asedis =
      if cfg.haveFPASIMD = true ∧ cfg.asedisRW = true ∧ ¬ (NonSecureView cfg ctx ∧ ctx.nsacrNsasedis = true)
      then v.getLsbD 31 else S.asedis := by
  simp only [cpacrWrite, CpacrField.lsb_asedis, ← nsAsedisRaowi_iff, Bool.and_eq_true, Bool.not_eq_true',
    Bool.not_eq_true]
  simp only [and_assoc]

theorem cpacrWrite_trcdis :
    (cpacrWrite cfg ctx S v).trcdis =
      if cfg.haveTraceSysRegs = true ∧ cfg.trcdisRW = true ∧ ¬ (NonSecureView cfg ctx ∧ ctx.nsacrNstrcdis = true)
      then .known (v.getLsbD 28) else S.trcdis := by
  simp only [cpacrWrite, CpacrField.lsb_trcdis, ← nsTrcdisRaowi_iff, Bool.and_eq_true, Bool.not_eq_true',
    Bool.not_eq_true]
  simp only [and_assoc]

theorem cpacrWrite_cp11 :
    (cpacrWrite cfg ctx S v).cp11 =
      if cfg.haveFPASIMD = true ∧ ¬ (NonSecureView cfg ctx ∧ ctx.nsacrCp10 = false)
      then v.extractLsb' 22 2 else S.cp11 := by
  simp only [cpacrWrite, CpacrField.lsb_cp11, ← nsFpRazwi_iff, Bool.and_eq_true, Bool.not_eq_true', Bool.not_eq_true]

theorem cpacrWrite_cp10 :
    (cpacrWrite cfg ctx S v).cp10 =
      if cfg.haveFPASIMD = true ∧ ¬ (NonSecureView cfg ctx ∧ ctx.nsacrCp10 = false)
      then v.extractLsb' 20 2 else S.cp10 := by
  simp only [cpacrWrite, CpacrField.lsb_cp10, ← nsFpRazwi_iff, Bool.and_eq_true, Bool.not_eq_true', Bool.not_eq_true]

theorem cpacrWrite_res0 :
    (cpacrWrite cfg ctx S v).res0 = if cfg.res0Readback = true then v &&& 0x6F0FFFFF#32 else S.res0 := by
  rw [← alwaysReserved_eq]
  rfl

end cpacrWrite

/-- Settles O20: an MCR that completes leaves `cpacrWrite` of its register, whose fields are the five lemmas above. -/
theorem mcrWritesEachFieldUnderItsRule : Obligations.McrWritesEachFieldUnderItsRule := by
  intro i s s' t hd ht hc h
  obtain ⟨-, rfl⟩ := exec_write_next i s s' t hd ht hc h
  exact ⟨cpacrWrite_asedis _ _ _ _, cpacrWrite_trcdis _ _ _ _, cpacrWrite_cp11 _ _ _ _, cpacrWrite_cp10 _ _ _ _,
    cpacrWrite_res0 _ _ _ _⟩

/-! ## The layout table -/

/-- The field that holds a bit (10 R11). -/
def CpacrField.ofBit (k : Nat) : CpacrField :=
  if k < 20 then .res19
  else if k < 22 then .cp10
  else if k < 24 then .cp11
  else if k < 28 then .res27
  else if k < 29 then .trcdis
  else if k < 31 then .res30
  else .asedis

/-- The masks of the seven fields share no bit and leave none out. -/
theorem CpacrField.mask_getLsbD_iff (f : CpacrField) {k : Nat} (hk : k < 32) :
    f.mask.getLsbD k = true ↔ f = CpacrField.ofBit k := by
  rw [CpacrField.mask_getLsbD, decide_eq_true_iff]
  cases f <;> grind [CpacrField.lsb, CpacrField.width, CpacrField.ofBit]

/-- A word under a field's mask is the field's bits at its place. -/
theorem and_mask_eq (f : CpacrField) (w : Word) :
    w &&& f.mask = (w.extractLsb' f.lsb f.width).setWidth 32 <<< f.lsb := by
  apply BitVec.eq_of_getLsbD_eq
  intro k hk
  rw [BitVec.getLsbD_and, CpacrField.mask_getLsbD, BitVec.getLsbD_shiftLeft, BitVec.getLsbD_setWidth,
    BitVec.getLsbD_extractLsb']
  by_cases hl : f.lsb ≤ k
  · have hkl : k - f.lsb < f.width ↔ k < f.lsb + f.width := by omega
    have hsum : f.lsb + (k - f.lsb) = k := by omega
    simp [hl, hk, hkl, hsum, Bool.and_comm, show k - f.lsb < 32 by omega]
  · simp [hl, show k < f.lsb by omega]

/-- The bit at a place is the one-bit field there. -/
theorem extractLsb'_one (w : Word) (k : Nat) : w.extractLsb' k 1 = BitVec.ofBool (w.getLsbD k) := by
  apply BitVec.eq_of_getLsbD_eq
  intro j hj
  obtain rfl : j = 0 := by omega
  simp

/-- Two words that agree under a mask agree in each of its bits. -/
theorem getLsbD_eq_of_and_eq {v w m : Word} (h : v &&& m = w &&& m) {k : Nat} (hk : m.getLsbD k = true) :
    v.getLsbD k = w.getLsbD k := by
  simpa [hk] using congrArg (BitVec.getLsbD · k) h

/-- Two words that agree under a mask agree in each two-bit field of it. -/
theorem extractLsb'_two_eq_of_and_eq {v w m : Word} (h : v &&& m = w &&& m) {k : Nat} (h0 : m.getLsbD k = true)
    (h1 : m.getLsbD (k + 1) = true) : v.extractLsb' k 2 = w.extractLsb' k 2 := by
  apply BitVec.eq_of_getLsbD_eq
  intro j hj
  have hbit : v.getLsbD (k + j) = w.getLsbD (k + j) := by
    obtain rfl | rfl : j = 0 ∨ j = 1 := by omega
    · exact getLsbD_eq_of_and_eq h h0
    · exact getLsbD_eq_of_and_eq h h1
  simp [hj, hbit]

/-- A write takes nothing from outside the named fields and, with RES0_READBACK, the reserved bits. -/
theorem cpacrWrite_congr (cfg : Config) (ctx : Context) (S : Cpacr) {v w : Word}
    (hn : v &&& 0x90F00000#32 = w &&& 0x90F00000#32)
    (hr : cfg.res0Readback = true → v &&& 0x6F0FFFFF#32 = w &&& 0x6F0FFFFF#32) :
    cpacrWrite cfg ctx S v = cpacrWrite cfg ctx S w := by
  have h31 : v.getLsbD 31 = w.getLsbD 31 := getLsbD_eq_of_and_eq hn rfl
  have h28 : v.getLsbD 28 = w.getLsbD 28 := getLsbD_eq_of_and_eq hn rfl
  have h22 : v.extractLsb' 22 2 = w.extractLsb' 22 2 := extractLsb'_two_eq_of_and_eq hn rfl rfl
  have h20 : v.extractLsb' 20 2 = w.extractLsb' 20 2 := extractLsb'_two_eq_of_and_eq hn rfl rfl
  have hres : (if cfg.res0Readback = true then v &&& alwaysReserved else S.res0)
      = if cfg.res0Readback = true then w &&& alwaysReserved else S.res0 := by
    split
    · rename_i hb
      rw [alwaysReserved_eq, hr hb]
    · rfl
  simp only [cpacrWrite, CpacrField.lsb_asedis, CpacrField.lsb_trcdis, CpacrField.lsb_cp11, CpacrField.lsb_cp10,
    h31, h28, h22, h20, hres]

theorem cpacrRead_and_asedis (cfg : Config) (ctx : Context) (S : Cpacr) (u : ReadDraws) :
    cpacrRead cfg ctx S u &&& CpacrField.asedis.mask = (BitVec.ofBool (readAsedis cfg ctx S u)).setWidth 32 <<< 31 := by
  rw [← cpacrRead_asedis, ← extractLsb'_one]
  exact and_mask_eq .asedis _

theorem cpacrRead_and_trcdis (cfg : Config) (ctx : Context) (S : Cpacr) (u : ReadDraws) :
    cpacrRead cfg ctx S u &&& CpacrField.trcdis.mask = (BitVec.ofBool (readTrcdis cfg ctx S u)).setWidth 32 <<< 28 := by
  rw [← cpacrRead_trcdis, ← extractLsb'_one]
  exact and_mask_eq .trcdis _

theorem cpacrRead_and_cp11 (cfg : Config) (ctx : Context) (S : Cpacr) (u : ReadDraws) :
    cpacrRead cfg ctx S u &&& CpacrField.cp11.mask = (readCp11 cfg ctx S u).setWidth 32 <<< 22 := by
  rw [← cpacrRead_cp11]
  exact and_mask_eq .cp11 _

theorem cpacrRead_and_cp10 (cfg : Config) (ctx : Context) (S : Cpacr) (u : ReadDraws) :
    cpacrRead cfg ctx S u &&& CpacrField.cp10.mask = (effCp10 cfg ctx S).setWidth 32 <<< 20 := by
  rw [← cpacrRead_cp10 cfg ctx S u]
  exact and_mask_eq .cp10 _

/-- The masks of the layout table (10 R11). -/
theorem cpacrField_masks :
    CpacrField.asedis.mask = 0x80000000#32 ∧ CpacrField.res30.mask = 0x60000000#32
      ∧ CpacrField.trcdis.mask = 0x10000000#32 ∧ CpacrField.res27.mask = 0x0F000000#32
      ∧ CpacrField.cp11.mask = 0x00C00000#32 ∧ CpacrField.cp10.mask = 0x00300000#32
      ∧ CpacrField.res19.mask = 0x000FFFFF#32 := by decide

/-- Settles O57. -/
theorem layoutPlacesEveryField : Obligations.LayoutPlacesEveryField := by
  obtain ⟨hasedis, hres30, htrcdis, hres27, hcp11, hcp10, hres19⟩ := cpacrField_masks
  refine ⟨⟨hasedis, hres30, htrcdis, hres27, hcp11, hcp10, hres19, namedFields_eq, alwaysReserved_eq⟩, ?_, ?_, ?_, ?_⟩
  · intro k hk
    exact ⟨.ofBit k, (CpacrField.mask_getLsbD_iff _ hk).mpr rfl, fun f' => (CpacrField.mask_getLsbD_iff f' hk).mp⟩
  · intro cfg ctx S u
    rw [← hasedis, ← htrcdis, ← hcp11, ← hcp10]
    exact ⟨cpacrRead_and_asedis cfg ctx S u, cpacrRead_and_trcdis cfg ctx S u, cpacrRead_and_cp11 cfg ctx S u,
      cpacrRead_and_cp10 cfg ctx S u, cpacrRead_and_alwaysReserved cfg ctx S u⟩
  · intro cfg ctx S v
    exact ⟨cpacrWrite_asedis cfg ctx S v, cpacrWrite_trcdis cfg ctx S v, cpacrWrite_cp11 cfg ctx S v,
      cpacrWrite_cp10 cfg ctx S v, cpacrWrite_res0 cfg ctx S v⟩
  · intro cfg ctx S v w hn hr
    exact cpacrWrite_congr cfg ctx S hn hr

/-! ## Which instructions and values are refused -/

/-- A register outside the admitted set is refused first, whatever the condition, the access check and the state
(40 R68). -/
theorem exec_of_not_wf (i : Instr) (s : State) (h : i.wf = false) : exec i s = .refused (.rtNotAdmitted i.set i.rt) := by
  have hnone : regIndex i.set i.rt = none := (regIndex_eq_none _ _).mpr h
  rw [exec_eq]
  cases i.direction <;> simp [moveFromCpacr, moveToCpacr, withRegister, hnone]

/-- A failed condition completes an admitted instruction (40 R63). -/
theorem exec_of_condition_fails (i : Instr) (s : State) (hw : i.wf = true)
    (hc : condPasses (instrCondition i s.ctx) s.flags = false) : exec i s = .next s.advancePc := by
  obtain ⟨t, ht, -⟩ := wf_regIndex i hw
  rw [exec_eq]
  cases i.direction <;> simp [moveFromCpacr, moveToCpacr, withRegister, underCondition, ht, hc]

/-- A write is refused for its value alone (10 R17). -/
theorem writeCpacr_eq_refused_iff (s : State) (v : Word) (r : Refusal) :
    writeCpacr s v = .refused r ↔ ¬ WritesNoRes0 s.config v ∧ r = .writesRes0 v := by
  rw [← refusedOnes_eq_zero_iff]
  by_cases h : v &&& refusedOnes s.config = 0#32
  · simp [writeCpacr, h]
  · simp [writeCpacr, h, eq_comm (a := r)]

/-- Every refusal of an admitted instruction is of the value it would write. -/
theorem exec_refused_of_wf {i : Instr} {s : State} {r : Refusal} (hw : i.wf = true) (h : exec i s = .refused r) :
    ∃ v, r = .writesRes0 v := by
  obtain ⟨t, -, ht⟩ := wf_regIndex i hw
  cases hc : condPasses (instrCondition i s.ctx) s.flags with
  | false => simp [exec_of_condition_fails i s hw hc] at h
  | true =>
    cases ha : accessCheck s.config s.ctx with
    | take e =>
      rw [exec_take i s e hw hc ha] at h
      exact absurd h (takeException_ne_refused _ _ _)
    | allow =>
      have hallowed := (accessCheck_allow_iff _ _).mp ha
      cases hd : i.direction with
      | read => simp [exec_read_allowed i s t hd hw ht hc hallowed] at h
      | write =>
        rw [exec_write_allowed i s t hd hw ht hc hallowed] at h
        obtain ⟨-, hr⟩ := (writeCpacr_eq_refused_iff _ _ _).mp h
        exact ⟨_, hr⟩

/-- Settles O21. -/
theorem mcrIsRefusedExactlyForOnesInRes0 : Obligations.McrIsRefusedExactlyForOnesInRes0 := by
  intro i s t hd hw ht hc ha
  rw [exec_write_allowed i s t hd hw ht hc ha, writeCpacr_eq_refused_iff]
  exact and_iff_left rfl

/-- The registers the spec admits, written out (40 R68). -/
theorem wf_iff (i : Instr) : i.wf = true ↔ i.rt ≠ 15#4 ∧ (i.set = .t32 → i.rt ≠ 13#4) := by
  unfold Instr.wf
  cases i.set <;> simp [rtAdmitted]

/-- Settles O23. -/
theorem onlyAdmittedRegistersRun : Obligations.OnlyAdmittedRegistersRun := by
  refine ⟨fun c s => ⟨exec_of_not_wf _ s rfl, exec_of_not_wf _ s rfl⟩, fun rt s hrt => ?_, ?_⟩
  · obtain rfl | rfl := hrt <;> exact ⟨exec_of_not_wf _ s rfl, exec_of_not_wf _ s rfl⟩
  · intro i s set rt h15 h13 h
    obtain ⟨v, hv⟩ := exec_refused_of_wf ((wf_iff i).mpr ⟨h15, h13⟩) h
    cases hv

/-! ## Reading back what was written -/

/-- With RES0_READBACK the reserved bits of a write read back; without it they read 0, which is all a write may hold there
(10 R17). -/
theorem readRes0_cpacrWrite (cfg : Config) (ctx : Context) (S : Cpacr) (v : Word) (hv : WritesNoRes0 cfg v) :
    readRes0 cfg (cpacrWrite cfg ctx S v) = v &&& 0x6F0FFFFF#32 := by
  obtain ⟨hreserved, -, -⟩ := hv
  cases hr : cfg.res0Readback with
  | false => simp [readRes0, hr, hreserved hr]
  | true => simp [readRes0, cpacrWrite_res0, hr]

/-- Where every field is present and RW and nothing is overridden, in the writer's context or in the reader's, a value with equal
cp11 and cp10 reads back whole. -/
theorem cpacrRead_cpacrWrite {cfg : Config} {ctx ctx' : Context} {v : Word} (S : Cpacr) (u : ReadDraws)
    (hfp : cfg.haveFPASIMD = true) (htr : cfg.haveTraceSysRegs = true) (ha : cfg.asedisRW = true)
    (ht : cfg.trcdisRW = true) (hw : NoOverride cfg ctx) (hr : NoOverride cfg ctx')
    (hcp : v.extractLsb' 22 2 = v.extractLsb' 20 2) (hv : WritesNoRes0 cfg v) :
    cpacrRead cfg ctx' (cpacrWrite cfg ctx S v) u = v := by
  obtain ⟨hwfp, hwa, hwt⟩ := hw.conditions
  obtain ⟨hrfp, hra, hrt⟩ := hr.conditions
  have hasedis : readAsedis cfg ctx' (cpacrWrite cfg ctx S v) u = v.getLsbD 31 := by
    simp [readAsedis, effAsedis, cpacrWrite, hfp, ha, hwa, hra]
  have htrcdis : readTrcdis cfg ctx' (cpacrWrite cfg ctx S v) u = v.getLsbD 28 := by
    simp [readTrcdis, effTrcdis, cpacrWrite, trcdisValue, htr, ht, hwt, hrt]
  have hcp11 : readCp11 cfg ctx' (cpacrWrite cfg ctx S v) u = v.extractLsb' 22 2 := by
    simp [readCp11, cpacrWrite, hfp, hwfp, hrfp, hcp]
  have hcp10 : effCp10 cfg ctx' (cpacrWrite cfg ctx S v) = v.extractLsb' 20 2 := by
    simp [effCp10, cpacrWrite, hfp, hwfp, hrfp]
  apply BitVec.eq_of_getLsbD_eq
  intro k hk
  simp only [cpacrRead_getLsbD, hasedis, htrcdis, hcp11, hcp10, readRes0_cpacrWrite cfg ctx S v hv]
  interval_cases k <;> simp

/-- Settles O40: the storage between the two instructions is the direct write of the value, in one context, and what the second
reads is its direct read, in the other. -/
theorem laterReadGivesTheValueWritten : Obligations.LaterReadGivesTheValueWritten := by
  intro s s1 s2 ctx2 w r tw tr hwd hrd htw htr hcw hcr hfp htrace ha ht how hor hcp h1 h2
  obtain ⟨hv, rfl⟩ := exec_write_next w s s1 tw hwd htw hcw h1
  have hread := readReg_of_exec_read_next h2 hrd htr hcr
  exact hread.trans (cpacrRead_cpacrWrite s.cpacr _ hfp htrace ha ht how hor hcp hv)

/-! ## The gate below PL2 -/

theorem GatedPrivilege.el_ne_el2 {cfg : Config} {ctx : Context} (h : GatedPrivilege cfg ctx) : ctx.el ≠ .el2 := by
  obtain ⟨-, hel, -⟩ := h
  exact hel

/-- R88's trace access, written out. -/
theorem el0TraceUndefined_iff (cfg : Config) (ctx : Context) (g : GatedInstr) :
    el0TraceUndefined cfg ctx g = true ↔
      g = .traceSystemRegisterAccess ∧ ctx.el = .el0 ∧ (cfg.featETMv4 = true ∨ cfg.featETE = true) := by
  cases g <;> simp [el0TraceUndefined, isTraceSysRegAccess, and_comm]

/-- Where the spec gives a gating rule, the test for the draws from the counter on makes the step end in Undefined (41 R91). -/
theorem step_gated_of_makesUndefined {s : State} {g : GatedInstr} {p : Pe} {rest : List Input}
    (hi : s.inputs = .gated g p :: rest) (hp : GatedPrivilege s.config s.ctx)
    (h : s.cpacrMakesUndefined g s.gateDraws = true) : step s = .fault (.undefined (.gated g)) :=
  step_gated_undefined s g p rest hi
    ((gate_eq_undefined_iff s g).mpr (.inr ⟨gatingSpecified_of_gatedPrivilege _ _ hp, h⟩))

/-- Where it does not hold, and R88 does not apply, the step completes with what the environment supplies. -/
theorem step_gated_of_not_makesUndefined {s : State} {g : GatedInstr} {p : Pe} {rest : List Input}
    (hi : s.inputs = .gated g p :: rest) (hp : GatedPrivilege s.config s.ctx)
    (hel0 : el0TraceUndefined s.config s.ctx g = false) (h : s.cpacrMakesUndefined g s.gateDraws = false) :
    step s = .next ((State.setPe { s with inputs := rest } p).countDraws gateDrawCount) :=
  step_gated_permitted s g p rest hi
    ((gate_eq_permitted_iff s g).mpr ⟨hel0, gatingSpecified_of_gatedPrivilege _ _ hp, h⟩)

/-- Settles O60: the draws choose a visible storage for each control, any visible one being met by some, and the gate applies
the test to the draws of the counter. -/
theorem eachControlConsultsAVisibleStorage : Obligations.EachControlConsultsAVisibleStorage := by
  intro s hp
  have hel := hp.el_ne_el2
  refine ⟨fun u => ?_, fun Sc Sa St pl0 trcdis hc ha ht => ?_, fun g p rest u hi hel0 hu => ?_⟩
  · have hvisible : ∀ k, Visible s (s.seenCpacr k) := fun k => (exists_seenCpacr_iff s _).mp ⟨k, rfl⟩
    exact ⟨_, _, _, hvisible _, hvisible _, hvisible _, fun g => cpacrMakesUndefined_iff s g u hel⟩
  · obtain ⟨kc, rfl⟩ := (exists_seenCpacr_iff s Sc).mpr hc
    obtain ⟨ka, rfl⟩ := (exists_seenCpacr_iff s Sa).mpr ha
    obtain ⟨kt, rfl⟩ := (exists_seenCpacr_iff s St).mpr ht
    exact ⟨{ pickCp10 := kc, pickAsedis := ka, pickTrcdis := kt, trcdis := trcdis, pl0 := pl0 },
      fun g => cpacrMakesUndefined_iff s g _ hel⟩
  · obtain rfl : u = s.gateDraws := hu
    have hnot88 : el0TraceUndefined s.config s.ctx g = false :=
      Bool.eq_false_iff.mpr (mt (el0TraceUndefined_iff _ _ _).mp hel0)
    cases h : s.cpacrMakesUndefined g s.gateDraws with
    | true => simpa using step_gated_of_makesUndefined hi hp h
    | false =>
      have hstep := step_gated_of_not_makesUndefined hi hp hnot88 h
      exact ⟨by simp [hstep], fun _ => ⟨_, hstep, rfl, rfl, rfl, rfl, rfl, rfl, rfl, rfl, rfl⟩⟩

/-- Settles O41: the override makes cp10 of every storage deny, and takes the write of cp10 and cp11 away. -/
theorem nonSecureStateCannotEnableWithheldFp : Obligations.NonSecureStateCannotEnableWithheldFp := by
  intro s hns hcp10
  have hwithheld : NonSecureView s.config s.ctx ∧ s.ctx.nsacrCp10 = false := ⟨hns, hcp10⟩
  refine ⟨fun S => ?_, fun g p rest hi hg hp => ?_, fun i s' h => ?_⟩
  · simp only [effCp10_eq, if_pos hwithheld, ite_self]
  · have hdenies : Cp10Denies s.config s.ctx (s.seenCpacr s.gateDraws.pickCp10) s.gateDraws.pl0 := .inr (.inl hwithheld)
    exact step_gated_of_makesUndefined hi hp
      ((cpacrMakesUndefined_iff s g _ hp.el_ne_el2).mpr (.inl ⟨hg, hdenies⟩))
  · have hignored : ¬ (s.config.haveFPASIMD = true ∧ ¬ (NonSecureView s.config s.ctx ∧ s.ctx.nsacrCp10 = false)) :=
      fun hw => hw.2 hwithheld
    obtain ⟨t, -, ⟨-, rfl⟩ | ⟨-, -, rfl⟩ | ⟨-, -, -, rfl⟩⟩ := exec_next i s s' h
    · exact ⟨rfl, rfl⟩
    · exact ⟨rfl, rfl⟩
    · exact ⟨(cpacrWrite_cp10 _ _ _ _).trans (if_neg hignored), (cpacrWrite_cp11 _ _ _ _).trans (if_neg hignored)⟩

/-! ## The counter of draws -/

theorem exec_next_draws_le {i : Instr} {s s' : State} (h : exec i s = .next s') : s.draws ≤ s'.draws := by
  obtain ⟨t, -, ⟨-, rfl⟩ | ⟨-, -, rfl⟩ | ⟨-, -, -, rfl⟩⟩ := exec_next i s s' h
  · exact Nat.le_refl _
  · exact Nat.le_add_right _ _
  · exact Nat.le_refl _

theorem Input.draws_le_effect (e : Input) (s : State) : s.draws ≤ (e.effect s).draws := by
  cases e with
  | gated => exact Nat.le_add_right _ _
  | proceed | setContext | contextSync | warmReset | externalDebugTraceAccess | cpacrEl1Write | storeByte =>
    exact Nat.le_refl _

theorem step_next_draws_le {s s' : State} (h : step s = .next s') : s.draws ≤ s'.draws := by
  obtain ⟨i, l, hexec⟩ | ⟨e, rest, -, rfl⟩ := step_next_cases h
  · exact exec_next_draws_le (s := { s with inputs := l }) hexec
  · exact Input.draws_le_effect e { s with inputs := rest }

/-- Settles O59: `readDraws` and `gateDraws` take their numbers from the counter on, and it is moved by as many. -/
theorem everyEvaluationDrawsAfresh : Obligations.EveryEvaluationDrawsAfresh := by
  refine ⟨fun s s' => step_next_draws_le, fun i s s' t hd ht hc h => ?_, fun s s' g p rest hi h => ?_⟩
  · have hread := readReg_of_exec_read_next h hd ht hc
    obtain rfl := exec_read_next i s s' t hd ht hc h
    exact ⟨State.readCpacrInto_draws s t, hread⟩
  · obtain ⟨hgate, rfl⟩ := step_gated_next s s' g p rest hi h
    obtain ⟨-, -, hpermits⟩ := (gate_eq_permitted_iff s g).mp hgate
    exact ⟨rfl, hpermits⟩

/-! ## Reset, the step and the conditions -/

/-- Settles O6. -/
theorem resetLeavesTheStatedStorage : Obligations.ResetLeavesTheStatedStorage :=
  ⟨rfl, rfl, rfl, rfl, rfl⟩

/-- A step that takes a Warm reset (70 R121). -/
theorem step_warmReset (s : State) (p : Pe) (rest : List Input) (hi : s.inputs = .warmReset p :: rest) :
    step s = .next (State.warmReset { s with inputs := rest } p) :=
  step_cons s _ rest hi

/-- Settles O7: the storage after the step is the one of `State.reset`. -/
theorem warmResetStepResetsTheStorage : Obligations.WarmResetStepResetsTheStorage := by
  intro s p rest hi
  exact ⟨_, step_warmReset s p rest hi, resetLeavesTheStatedStorage⟩

/-- Settles O13. -/
theorem stepRunsTheDecodedInstruction : Obligations.StepRunsTheDecodedInstruction := by
  intro s s0 b0 b1 b2 b3 i tail hrun h0 h1 h2 h3 hd
  rw [step_of_runsInstruction hrun]
  obtain ⟨l, rfl⟩ := hrun.eq_with_inputs
  have hfetch : State.fetchBytes { s with inputs := l } = .ok [b0, b1, b2, b3] :=
    Memory.readBytes_four s.memory s.pc b0 b1 b2 b3 h0 h1 h2 h3
  exact runInstruction_of_decode hfetch hd

/-- Settles O58: `encodeCond` and `condPasses` are the table. -/
theorem conditionsHaveTheirNumbersAndTests : Obligations.ConditionsHaveTheirNumbersAndTests := by
  refine ⟨rfl, fun f => ?_⟩
  simp [condPasses]

end Sys2Proof.Machine

/-! PROOFS. The family 30_encoding: what the decoder reads from a word (30 R50 to R57). Decoder and encoder are compared through
the fields of a word: `encodeWord_eq_iff` says which fields an encoding has, `decodeWord_ok_iff_fields` which fields the decoder
accepts, and the masks of R54 speak of the same fields (`and_moveMask_eq_iff`). -/

namespace Sys2Proof

/-! ## The fields of a word -/

/-- A word and its fields determine each other. -/
theorem joinWord_eq_iff (f : WordFields) (w : Word) : joinWord f = w ↔ splitWord w = f := by
  constructor
  · rintro rfl
    exact splitWord_joinWord f
  · rintro rfl
    exact joinWord_splitWord w

/-- The fields of MRC or MCR of CPACR: the tuple of 30 R50 in the layout of R54. -/
def moveFields (cond : BitVec 4) (d : Direction) (rt : BitVec 4) : WordFields where
  cond := cond
  op := 0b1110#4
  opc1 := cpacrTuple.opc1
  l := encodeDirection d
  crn := cpacrTuple.crn
  rt := rt
  coproc := cpacrTuple.coproc
  opc2 := cpacrTuple.opc2
  one := 1#1
  crm := cpacrTuple.crm

theorem eq_moveFields_iff (f : WordFields) (cond : BitVec 4) (d : Direction) (rt : BitVec 4) :
    f = moveFields cond d rt ↔
      f.cond = cond ∧ f.op = 0b1110#4 ∧ f.one = 1#1 ∧ f.tuple = cpacrTuple ∧ f.rt = rt ∧ f.l = encodeDirection d := by
  obtain ⟨fcond, op, opc1, l, crn, frt, coproc, opc2, one, crm⟩ := f
  simp only [moveFields, WordFields.tuple, cpacrTuple, WordFields.mk.injEq, SysRegTuple.mk.injEq]
  tauto

/-- The `L` bit selects one of two instructions: it is MRC's or MCR's, and has no third value. -/
theorem eq_ite_l_iff (l : BitVec 1) (i mrc mcr : Instr) :
    (i = if l = 1#1 then mrc else mcr) ↔
      (i = mrc ∧ l = encodeDirection .read) ∨ (i = mcr ∧ l = encodeDirection .write) := by
  obtain rfl | rfl : l = 1#1 ∨ l = 0#1 := by revert l; decide
  · simp [encodeDirection]
  · simp [encodeDirection]

/-! ## The encoder -/

/-- The condition field of an encoding: T32 has AL's bits in its place (30 R54). -/
def Instr.condField (i : Instr) : BitVec 4 := (i.cond?.map encodeCond).getD 0b1110#4

theorem encodeWord_eq_joinWord (i : Instr) : encodeWord i = joinWord (moveFields i.condField i.direction i.rt) := by
  cases i <;> rfl

/-- A word is an instruction's encoding exactly when it has the instruction's fields. -/
theorem encodeWord_eq_iff (i : Instr) (w : Word) :
    encodeWord i = w ↔ splitWord w = moveFields i.condField i.direction i.rt := by
  rw [encodeWord_eq_joinWord, joinWord_eq_iff]

/-! ## The decoder -/

/-- The A32 decoder accepts exactly the fields of the admitted A32 instructions (30 R54, R57). -/
theorem decodeA32_ok_iff_fields (w : Word) (i : Instr) :
    decodeA32 w = .ok i ↔
      i.set = .a32 ∧ i.wf = true ∧ splitWord w = moveFields i.condField i.direction i.rt := by
  simp only [decodeA32_ok_iff, eq_moveFields_iff, decodeCond_eq_some, eq_ite_l_iff]
  constructor
  · rintro ⟨c, hcond, hop, hone, htuple, hrt, ⟨rfl, hl⟩ | ⟨rfl, hl⟩⟩
    · exact ⟨rfl, hrt, hcond, hop, hone, htuple, rfl, hl⟩
    · exact ⟨rfl, hrt, hcond, hop, hone, htuple, rfl, hl⟩
  · rintro ⟨hset, hwf, hcond, hop, hone, htuple, hrt, hl⟩
    cases i with
    | mrcT32 | mcrT32 => cases hset
    | mrcA32 c rt =>
      subst hrt
      exact ⟨c, hcond, hop, hone, htuple, hwf, .inl ⟨rfl, hl⟩⟩
    | mcrA32 c rt =>
      subst hrt
      exact ⟨c, hcond, hop, hone, htuple, hwf, .inr ⟨rfl, hl⟩⟩

/-- The T32 decoder accepts exactly the fields of the admitted T32 instructions (30 R54, R57). -/
theorem decodeT32_ok_iff_fields (w : Word) (i : Instr) :
    decodeT32 w = .ok i ↔
      i.set = .t32 ∧ i.wf = true ∧ splitWord w = moveFields i.condField i.direction i.rt := by
  rw [decodeT32_ok_iff, eq_moveFields_iff, eq_ite_l_iff]
  constructor
  · rintro ⟨hcond, hop, hone, htuple, hrt, ⟨rfl, hl⟩ | ⟨rfl, hl⟩⟩
    · exact ⟨rfl, hrt, hcond, hop, hone, htuple, rfl, hl⟩
    · exact ⟨rfl, hrt, hcond, hop, hone, htuple, rfl, hl⟩
  · rintro ⟨hset, hwf, hcond, hop, hone, htuple, hrt, hl⟩
    cases i with
    | mrcA32 | mcrA32 => cases hset
    | mrcT32 rt =>
      subst hrt
      exact ⟨hcond, hop, hone, htuple, hwf, .inl ⟨rfl, hl⟩⟩
    | mcrT32 rt =>
      subst hrt
      exact ⟨hcond, hop, hone, htuple, hwf, .inr ⟨rfl, hl⟩⟩

theorem decodeWord_ok_iff_fields (set : InstrSet) (w : Word) (i : Instr) :
    decodeWord set w = .ok i ↔
      i.set = set ∧ i.wf = true ∧ splitWord w = moveFields i.condField i.direction i.rt := by
  cases set with
  | a32 => exact decodeA32_ok_iff_fields w i
  | t32 => exact decodeT32_ok_iff_fields w i

/-- Settles O2: the decoder accepts an instruction's fields, and the words with those fields are its encoding. -/
theorem decodedWordsAreExactlyTheEncodings : Obligations.DecodedWordsAreExactlyTheEncodings := by
  intro set w i
  rw [decodeWord_ok_iff_fields, encodeWord_eq_iff]

/-- Settles O1: the bytes of an encoding give its word, and O2 says what the word decodes to. -/
theorem decodeOfEncodeIsTheInstruction : Obligations.DecodeOfEncodeIsTheInstruction := by
  intro i rest hwf
  have hword : decodeWord i.set (encodeWord i) = .ok i :=
    (decodedWordsAreExactlyTheEncodings _ _ _).mpr ⟨rfl, hwf, rfl⟩
  rw [encode, decode_bytesOfWord, hword]

/-- Settles O4: a word that decodes has the tuple of CPACR. -/
theorem wordsOfOtherRegistersAreRefused : Obligations.WordsOfOtherRegistersAreRefused := by
  intro set w hother
  cases h : decodeWord set w with
  | error r => exact ⟨r, rfl⟩
  | ok i =>
    obtain ⟨-, -, hfields⟩ := (decodeWord_ok_iff_fields set w i).mp h
    obtain ⟨-, -, -, htuple, -, -⟩ := (eq_moveFields_iff _ _ _ _).mp hfields
    obtain ⟨hcoproc, hopc1, hcrn, hcrm, hopc2⟩ := SysRegTuple.mk.inj htuple
    exact absurd ⟨hcoproc, hopc1, hcrn, hcrm, hopc2⟩ hother

/-! ## The masks of 30 R54 -/

/-- Masking a word masks each of its fields. -/
theorem splitWord_and (w m : Word) :
    splitWord (w &&& m) =
      { cond := (splitWord w).cond &&& (splitWord m).cond
        op := (splitWord w).op &&& (splitWord m).op
        opc1 := (splitWord w).opc1 &&& (splitWord m).opc1
        l := (splitWord w).l &&& (splitWord m).l
        crn := (splitWord w).crn &&& (splitWord m).crn
        rt := (splitWord w).rt &&& (splitWord m).rt
        coproc := (splitWord w).coproc &&& (splitWord m).coproc
        opc2 := (splitWord w).opc2 &&& (splitWord m).opc2
        one := (splitWord w).one &&& (splitWord m).one
        crm := (splitWord w).crm &&& (splitWord m).crm } := by
  simp only [splitWord, BitVec.extractLsb'_and]

/-- A mask that keeps every field but `Rt`, and of the condition field the bits of `cond`. -/
def moveMask (cond : BitVec 4) : WordFields where
  cond := cond
  op := BitVec.allOnes 4
  opc1 := BitVec.allOnes 3
  l := BitVec.allOnes 1
  crn := BitVec.allOnes 4
  rt := 0#4
  coproc := BitVec.allOnes 4
  opc2 := BitVec.allOnes 3
  one := BitVec.allOnes 1
  crm := BitVec.allOnes 4

/-- A word matches under such a mask when it has the fields of MRC or MCR of CPACR for some `Rt`, and its condition field the
match's. -/
theorem and_moveMask_eq_iff (w : Word) (m cond : BitVec 4) (d : Direction) :
    w &&& joinWord (moveMask m) = joinWord (moveFields cond d 0#4) ↔
      (splitWord w).cond &&& m = cond
        ∧ splitWord w = moveFields (splitWord w).cond d (splitWord w).rt := by
  rw [eq_comm, joinWord_eq_iff, splitWord_and, splitWord_joinWord, eq_moveFields_iff, eq_moveFields_iff]
  simp only [moveMask, WordFields.tuple, BitVec.and_allOnes, BitVec.and_zero, true_and]

/-- The A32 rows' mask leaves the condition field out. -/
theorem and_maskA32_eq_iff (w : Word) (d : Direction) :
    w &&& 0x0FFF0FFF#32 = joinWord (moveFields 0#4 d 0#4) ↔
      splitWord w = moveFields (splitWord w).cond d (splitWord w).rt := by
  have hmask : joinWord (moveMask 0#4) = 0x0FFF0FFF#32 := rfl
  rw [← hmask, and_moveMask_eq_iff]
  simp

/-- The T32 rows' mask holds the place of the condition field to `0b1110`. -/
theorem and_maskT32_eq_iff (w : Word) (d : Direction) :
    w &&& 0xFFFF0FFF#32 = joinWord (moveFields 0b1110#4 d 0#4) ↔
      splitWord w = moveFields 0b1110#4 d (splitWord w).rt := by
  have hmask : joinWord (moveMask (BitVec.allOnes 4)) = 0xFFFF0FFF#32 := rfl
  rw [← hmask, and_moveMask_eq_iff, BitVec.and_allOnes]
  constructor
  · rintro ⟨hcond, h⟩
    rwa [hcond] at h
  · intro h
    have hcond : (splitWord w).cond = 0b1110#4 := congrArg WordFields.cond h
    exact ⟨hcond, by rwa [hcond]⟩

theorem exists_encodeCond_eq_iff (b : BitVec 4) : (∃ c, b = encodeCond c) ↔ b ≠ 15#4 := by
  rw [Ne, ← decodeCond_eq_none, ← Ne, Option.ne_none_iff_exists']
  simp only [decodeCond_eq_some]

/-- The registers of A32 and of T32 (40 R68). -/
theorem rtAdmitted_a32_iff (rt : BitVec 4) : rtAdmitted .a32 rt = true ↔ rt ≠ 15#4 := by
  simp [rtAdmitted]

theorem rtAdmitted_t32_iff (rt : BitVec 4) : rtAdmitted .t32 rt = true ↔ rt ≠ 15#4 ∧ rt ≠ 13#4 := by
  simp [rtAdmitted]

/-- The words with the fields of an admitted A32 instruction, by mask and match. -/
theorem exists_moveFields_a32_iff (w : Word) (d : Direction) :
    (∃ c rt, rtAdmitted .a32 rt = true ∧ splitWord w = moveFields (encodeCond c) d rt) ↔
      (w &&& 0x0FFF0FFF#32 = joinWord (moveFields 0#4 d 0#4) ∧ (splitWord w).cond ≠ 15#4
        ∧ (splitWord w).rt ≠ 15#4) := by
  rw [and_maskA32_eq_iff]
  constructor
  · rintro ⟨c, rt, hadm, h⟩
    have hcond : (splitWord w).cond = encodeCond c := congrArg WordFields.cond h
    obtain rfl : (splitWord w).rt = rt := congrArg WordFields.rt h
    exact ⟨by rwa [hcond], (exists_encodeCond_eq_iff _).mp ⟨c, hcond⟩, (rtAdmitted_a32_iff _).mp hadm⟩
  · rintro ⟨h, hcond, hrt⟩
    obtain ⟨c, hc⟩ := (exists_encodeCond_eq_iff _).mpr hcond
    exact ⟨c, _, (rtAdmitted_a32_iff _).mpr hrt, by rwa [← hc]⟩

/-- The words with the fields of an admitted T32 instruction, by mask and match. -/
theorem exists_moveFields_t32_iff (w : Word) (d : Direction) :
    (∃ rt, rtAdmitted .t32 rt = true ∧ splitWord w = moveFields 0b1110#4 d rt) ↔
      (w &&& 0xFFFF0FFF#32 = joinWord (moveFields 0b1110#4 d 0#4) ∧ (splitWord w).rt ≠ 15#4
        ∧ (splitWord w).rt ≠ 13#4) := by
  rw [and_maskT32_eq_iff]
  constructor
  · rintro ⟨rt, hadm, h⟩
    obtain rfl : (splitWord w).rt = rt := congrArg WordFields.rt h
    exact ⟨h, (rtAdmitted_t32_iff _).mp hadm⟩
  · rintro ⟨h, hrt⟩
    exact ⟨_, (rtAdmitted_t32_iff _).mpr hrt, h⟩

/-- The matches of the four rows are the words of the two directions that are 0 outside the rows' masks. -/
theorem joinWord_moveFields_matches :
    joinWord (moveFields 0#4 .read 0#4) = 0x0E110F50#32 ∧ joinWord (moveFields 0#4 .write 0#4) = 0x0E010F50#32
      ∧ joinWord (moveFields 0b1110#4 .read 0#4) = 0xEE110F50#32
      ∧ joinWord (moveFields 0b1110#4 .write 0#4) = 0xEE010F50#32 := ⟨rfl, rfl, rfl, rfl⟩

/-- Settles O3, row by row: the fields of the row's instructions, then its mask and match. -/
theorem decoderAcceptsByMaskAndMatch : Obligations.DecoderAcceptsByMaskAndMatch := by
  intro w
  obtain ⟨hmrcA32, hmcrA32, hmrcT32, hmcrT32⟩ := joinWord_moveFields_matches
  rw [← hmrcA32, ← hmcrA32, ← hmrcT32, ← hmcrT32]
  simp only [decodeWord_ok_iff_fields, Instr.set, Instr.wf, true_and]
  exact ⟨exists_moveFields_a32_iff w .read, exists_moveFields_a32_iff w .write,
    exists_moveFields_t32_iff w .read, exists_moveFields_t32_iff w .write⟩

end Sys2Proof

namespace Sys2Proof.Machine

/-! ## What an instruction does, whatever its encoding -/

/-- When an instruction completes, and with what: the encoding enters by its direction, its register and its condition alone. -/
theorem exec_next_iff (i : Instr) (s s' : State) :
    exec i s = .next s' ↔ ∃ t, regIndex i.set i.rt = some t
      ∧ ((condPasses (instrCondition i s.ctx) s.flags = false ∧ s' = s.advancePc)
        ∨ (condPasses (instrCondition i s.ctx) s.flags = true ∧ AccessAllowed s.config s.ctx
          ∧ ((i.direction = .read ∧ s' = s.readCpacrInto t)
            ∨ (i.direction = .write ∧ WritesNoRes0 s.config (s.readReg t) ∧ s' = s.writeCpacrFrom (s.readReg t))))) := by
  constructor
  · intro h
    rw [exec_eq] at h
    cases hd : i.direction <;> rw [hd] at h
    case read =>
      obtain ⟨t, hr, hfails | ⟨hc, ha, hs⟩⟩ := moveFromCpacr_next _ _ _ _ h
      · exact ⟨t, hr, .inl hfails⟩
      · exact ⟨t, hr, .inr ⟨hc, ha, .inl ⟨rfl, hs⟩⟩⟩
    case write =>
      obtain ⟨t, hr, hfails | ⟨hc, ha, hv⟩⟩ := moveToCpacr_next _ _ _ _ h
      · exact ⟨t, hr, .inl hfails⟩
      · exact ⟨t, hr, .inr ⟨hc, ha, .inr ⟨rfl, hv⟩⟩⟩
  · rintro ⟨t, hr, hcases⟩
    obtain ⟨hwf, ht⟩ := (regIndex_eq_some _ _ _).mp hr
    obtain ⟨hc, rfl⟩ | ⟨hc, ha, ⟨hd, rfl⟩ | ⟨hd, hv, rfl⟩⟩ := hcases
    · exact exec_of_condition_fails i s hwf hc
    · exact exec_read_allowed i s t hd hwf ht hc ha
    · rw [exec_write_allowed i s t hd hwf ht hc ha]
      exact writeCpacr_of_writesNoRes0 s _ hv

/-- Two encodings of one instruction complete alike. -/
theorem exec_next_congr {i j : Instr} {s : State} (hd : i.direction = j.direction)
    (hr : regIndex i.set i.rt = regIndex j.set j.rt) (hc : instrCondition i s.ctx = instrCondition j s.ctx) (s' : State) :
    exec i s = .next s' ↔ exec j s = .next s' := by
  rw [exec_next_iff, exec_next_iff, hd, hr, hc]

/-- The two sets differ in the register 13 alone (40 R68). -/
theorem regIndex_t32_eq_a32 (rt : BitVec 4) (h : rt ≠ 13#4) : regIndex .t32 rt = regIndex .a32 rt := by
  simp [regIndex, rtAdmitted, h]

/-- Settles O24. -/
theorem t32CompletesAsA32UnderTheSameCondition : Obligations.T32CompletesAsA32UnderTheSameCondition := by
  intro s s' c rt hrt hit
  have hreg := regIndex_t32_eq_a32 rt hrt
  have hcond : itCondition s.ctx = c := by simp [itCondition, hit]
  exact ⟨exec_next_congr (i := .mrcT32 rt) (j := .mrcA32 c rt) rfl hreg hcond s',
    exec_next_congr (i := .mcrT32 rt) (j := .mcrA32 c rt) rfl hreg hcond s'⟩

/-- Without the feature `Check` takes Undefined, at any level (40 R62, row 1). -/
theorem accessCheck_of_absent (cfg : Config) (ctx : Context) (h : cfg.featAA32EL1 = false) :
    accessCheck cfg ctx = .take .undefined := by
  rw [accessCheck_eq, if_neg (by simp [h])]

/-- Settles O26. -/
theorem absentRegisterAccessIsUndefined : Obligations.AbsentRegisterAccessIsUndefined := by
  intro i s hwf hc habsent
  exact exec_take i s .undefined hwf hc (accessCheck_of_absent _ _ habsent)

end Sys2Proof.Machine

/-! PROOFS. The family 40_sysreg_access: which accesses complete and with what (40 R60 to R63), and which exceptions the others
take (R62, R64 to R66). Completion rests on `exec_read_completes` and `exec_write_completes`, exceptions on `exec_fault_iff`, all
three for any encoding. -/

namespace Sys2Proof.Machine

/-! ## What a completed instruction leaves alone -/

theorem samePlatform_advancePc (s : State) : SamePlatform s s.advancePc :=
  ⟨rfl, rfl, rfl, rfl, fun _ => rfl⟩

theorem samePlatform_readCpacrInto (s : State) (t : Fin 15) : SamePlatform s (s.readCpacrInto t) :=
  ⟨rfl, rfl, rfl, rfl, fun _ => rfl⟩

theorem samePlatform_writeCpacrFrom (s : State) (v : Word) : SamePlatform s (s.writeCpacrFrom v) :=
  ⟨rfl, rfl, rfl, rfl, fun _ => rfl⟩

theorem sameRegsBut_readCpacrInto (s : State) (t : Fin 15) : SameRegsBut t s (s.readCpacrInto t) :=
  fun r hr => State.readReg_readCpacrInto_ne s t r hr

/-- Settles O15: the three states that an instruction can leave, each with its frame. -/
theorem completedInstructionsMoveOnAndLeaveTheRest : Obligations.CompletedInstructionsMoveOnAndLeaveTheRest := by
  intro i s s' h
  obtain ⟨t, hr, ⟨-, rfl⟩ | ⟨hd, -, rfl⟩ | ⟨hd, -, -, rfl⟩⟩ := exec_next i s s' h
  · exact ⟨rfl, samePlatform_advancePc s, fun _ => ⟨rfl, rfl⟩, fun _ _ => rfl, fun _ _ _ _ => rfl⟩
  · refine ⟨rfl, samePlatform_readCpacrInto s t, fun _ => ⟨rfl, rfl⟩, fun hw => ?_, fun t' ht' => ?_⟩
    · simp [hd] at hw
    · obtain ⟨-, ht⟩ := (regIndex_eq_some _ _ _).mp hr
      obtain rfl : t = t' := Fin.ext (ht.trans ht'.symm)
      exact sameRegsBut_readCpacrInto s t
  · refine ⟨rfl, samePlatform_writeCpacrFrom s _, fun hrd => ?_, fun _ => State.readReg_writeCpacrFrom s _,
      fun _ _ r _ => State.readReg_writeCpacrFrom s _ r⟩
    simp [hd] at hrd

/-- Settles O22. -/
theorem failedConditionIsANoOp : Obligations.FailedConditionIsANoOp :=
  exec_of_condition_fails

/-! ## Completion, whatever the encoding -/

section completes

variable {i : Instr} {s : State} {t : Fin 15}

/-- An MRC whose access is allowed completes with a direct read (40 R60, R69). -/
theorem exec_read_completes (hd : i.direction = .read) (hw : i.wf = true) (ht : t.val = i.rt.toNat)
    (hc : condPasses (instrCondition i s.ctx) s.flags = true) (ha : AccessAllowed s.config s.ctx) :
    ∃ s' u, exec i s = .next s'
      ∧ s'.readReg t = cpacrRead s.config s.ctx s.cpacr u
      ∧ s'.pc = s.pc + 4 ∧ s'.cpacr = s.cpacr ∧ s'.pending = s.pending ∧ SameRegsBut t s s' ∧ SamePlatform s s' :=
  ⟨_, _, exec_read_allowed i s t hd hw ht hc ha, State.readReg_readCpacrInto s t, rfl, rfl, rfl,
    sameRegsBut_readCpacrInto s t, samePlatform_readCpacrInto s t⟩

/-- An MCR whose access is allowed and whose value may be written completes with a direct write (40 R61, R69; 70 R126). -/
theorem exec_write_completes (hd : i.direction = .write) (hw : i.wf = true) (ht : t.val = i.rt.toNat)
    (hc : condPasses (instrCondition i s.ctx) s.flags = true) (ha : AccessAllowed s.config s.ctx)
    (hv : WritesNoRes0 s.config (s.readReg t)) :
    ∃ s', exec i s = .next s'
      ∧ s'.cpacr = cpacrWrite s.config s.ctx s.cpacr (s.readReg t)
      ∧ (s.config.syncModel = .untilSync → s'.pending = s.pending ++ [s.cpacr])
      ∧ (s.config.syncModel = .immediate → s'.pending = s.pending)
      ∧ s'.pc = s.pc + 4 ∧ (∀ r, s'.readReg r = s.readReg r) ∧ SamePlatform s s' := by
  have hexec : exec i s = .next (s.writeCpacrFrom (s.readReg t)) :=
    (exec_write_allowed i s t hd hw ht hc ha).trans (writeCpacr_of_writesNoRes0 s _ hv)
  exact ⟨_, hexec, rfl, fun hm => by simp [hm], fun hm => by simp [hm], rfl, State.readReg_writeCpacrFrom s _,
    samePlatform_writeCpacrFrom s _⟩

/-- An allowed access reads or writes the register (40 R62, "Allow"). -/
theorem exec_accesses (hw : i.wf = true) (ht : t.val = i.rt.toNat)
    (hc : condPasses (instrCondition i s.ctx) s.flags = true) (ha : AccessAllowed s.config s.ctx) :
    (i.direction = .read → ∃ s' u, exec i s = .next s' ∧ s'.readReg t = cpacrRead s.config s.ctx s.cpacr u)
      ∧ (i.direction = .write → WritesNoRes0 s.config (s.readReg t) →
        ∃ s', exec i s = .next s' ∧ s'.cpacr = cpacrWrite s.config s.ctx s.cpacr (s.readReg t)) := by
  refine ⟨fun hd => ?_, fun hd hv => ?_⟩
  · obtain ⟨s', u, hexec, hread, -⟩ := exec_read_completes hd hw ht hc ha
    exact ⟨s', u, hexec, hread⟩
  · obtain ⟨s', hexec, hwrite, -⟩ := exec_write_completes hd hw ht hc ha hv
    exact ⟨s', hexec, hwrite⟩

end completes

/-! ## The four encodings -/

/-- A field that holds the number of a register is not 15. -/
theorem rt_ne_fifteen {rt : BitVec 4} {t : Fin 15} (ht : t.val = rt.toNat) : rt ≠ 15#4 := by
  rintro rfl
  exact absurd ht (Nat.ne_of_lt t.isLt)

theorem rtAdmitted_a32_of_register {rt : BitVec 4} {t : Fin 15} (ht : t.val = rt.toNat) : rtAdmitted .a32 rt = true :=
  (rtAdmitted_a32_iff rt).mpr (rt_ne_fifteen ht)

theorem rtAdmitted_t32_of_register {rt : BitVec 4} {t : Fin 15} (ht : t.val = rt.toNat) (h13 : rt ≠ 13#4) :
    rtAdmitted .t32 rt = true :=
  (rtAdmitted_t32_iff rt).mpr ⟨rt_ne_fifteen ht, h13⟩

/-- A T32 instruction executes under the condition of an enclosing IT block, and always outside one (30 R54). -/
theorem condPasses_itCondition {ctx : Context} {f : Flags} (h : ∀ c, ctx.itCond = some c → condPasses c f = true) :
    condPasses (itCondition ctx) f = true := by
  unfold itCondition
  cases hit : ctx.itCond with
  | none => rfl
  | some c => exact h c hit

/-- Settles O16. -/
theorem mrcA32CompletesWithADirectRead : Obligations.MrcA32CompletesWithADirectRead := by
  intro s c rt t ht hc ha
  exact exec_read_completes (i := .mrcA32 c rt) rfl (rtAdmitted_a32_of_register ht) ht hc ha

/-- Settles O17. -/
theorem mrcT32CompletesWithADirectRead : Obligations.MrcT32CompletesWithADirectRead := by
  intro s rt t ht h13 hc ha
  exact exec_read_completes (i := .mrcT32 rt) rfl (rtAdmitted_t32_of_register ht h13) ht (condPasses_itCondition hc) ha

/-- Settles O18. -/
theorem mcrA32CompletesWithADirectWrite : Obligations.McrA32CompletesWithADirectWrite := by
  intro s c rt t ht hc ha hv
  exact exec_write_completes (i := .mcrA32 c rt) rfl (rtAdmitted_a32_of_register ht) ht hc ha hv

/-- Settles O19. -/
theorem mcrT32CompletesWithADirectWrite : Obligations.McrT32CompletesWithADirectWrite := by
  intro s rt t ht h13 hc ha hv
  exact exec_write_completes (i := .mcrT32 rt) rfl (rtAdmitted_t32_of_register ht h13) ht (condPasses_itCondition hc) ha hv

/-! ## `Check` by Exception level (40 R62) -/

section accessCheck

variable {cfg : Config} {ctx : Context}

/-- With the register present or absent, `Check` takes Undefined at EL0 (40 R62, rows 1 and 2). -/
theorem accessCheck_of_el0 (hel : ctx.el = .el0) : accessCheck cfg ctx = .take .undefined := by
  simp [accessCheck_eq, hel]

theorem accessCheck_of_el1 (hf : cfg.featAA32EL1 = true) (hel : ctx.el = .el1) :
    accessCheck cfg ctx = accessCheckEL1 cfg ctx := by
  simp [accessCheck_eq, hf, hel]

theorem accessCheck_of_el2 (hf : cfg.featAA32EL1 = true) (hel : ctx.el = .el2) :
    accessCheck cfg ctx = accessCheckEL2 cfg ctx := by
  simp [accessCheck_eq, hf, hel]

/-- EL2 uses one Execution state, so only one pair of its controls applies (40 R62, first consequence). -/
theorem El2AArch32TrapsAccess.not_el2AArch64 (h : El2AArch32TrapsAccess cfg ctx) : ¬ El2AArch64TrapsAccess cfg ctx := by
  rintro ⟨-, -, h64, -⟩
  obtain ⟨-, -, h32, -⟩ := h
  simp [h32] at h64

theorem accessCheckEL1_of_priority (h3 : El3ControlsAccess cfg ctx) (hp : ctx.el3SDDUndefPriority = true) :
    accessCheckEL1 cfg ctx = .take .undefined := by
  rw [accessCheckEL1_eq, if_pos ⟨h3, hp⟩]

theorem accessCheckEL1_of_el2AArch64 (hp : ¬ (El3ControlsAccess cfg ctx ∧ ctx.el3SDDUndefPriority = true))
    (h64 : El2AArch64TrapsAccess cfg ctx) : accessCheckEL1 cfg ctx = .take (.sysAccessTrap .el2) := by
  rw [accessCheckEL1_eq, if_neg hp, if_pos h64]

theorem accessCheckEL1_of_el2AArch32 (hp : ¬ (El3ControlsAccess cfg ctx ∧ ctx.el3SDDUndefPriority = true))
    (h32 : El2AArch32TrapsAccess cfg ctx) : accessCheckEL1 cfg ctx = .take .hypTrap := by
  rw [accessCheckEL1_eq, if_neg hp, if_neg h32.not_el2AArch64, if_pos h32]

theorem accessCheckEL1_of_el3 (hp : ¬ (El3ControlsAccess cfg ctx ∧ ctx.el3SDDUndefPriority = true))
    (h64 : ¬ El2AArch64TrapsAccess cfg ctx) (h32 : ¬ El2AArch32TrapsAccess cfg ctx) (h3 : El3ControlsAccess cfg ctx) :
    accessCheckEL1 cfg ctx = .take (if ctx.el3SDDUndef = true then .undefined else .sysAccessTrap .el3) := by
  rw [accessCheckEL1_eq, if_neg hp, if_neg h64, if_neg h32, if_pos h3, apply_ite AccessResult.take]

theorem accessCheckEL2_of_el3 (h3 : El3ControlsAccess cfg ctx) :
    accessCheckEL2 cfg ctx =
      .take (if ctx.el3SDDUndefPriority = true ∨ ctx.el3SDDUndef = true then .undefined else .sysAccessTrap .el3) := by
  rw [accessCheckEL2_eq, if_pos h3, apply_ite AccessResult.take]

end accessCheck

/-- What the EL3 control takes, by the SDD helpers (60 R100, R103). -/
theorem takeException_el3 (p : Prop) [Decidable p] (c : Cause) :
    takeException (if p then .undefined else .sysAccessTrap .el3) c =
      if p then .fault (.undefined c) else .fault (.sysAccessTrap .el3 0x03 c) := by
  split <;> rfl

/-- Settles O25. -/
theorem accessFromEl0IsUndefined : Obligations.AccessFromEl0IsUndefined := by
  intro i s hw hc hel
  exact exec_take i s .undefined hw hc (accessCheck_of_el0 hel)

/-- Settles O27: each clause is a row of the EL1 block. -/
theorem accessFromEl1TakesByPriority : Obligations.AccessFromEl1TakesByPriority := by
  intro i s hw hc hf hel
  have htake (e : ExceptionKind) (he : accessCheckEL1 s.config s.ctx = .take e) : exec i s = takeException e (.instr i) :=
    exec_take i s e hw hc ((accessCheck_of_el1 hf hel).trans he)
  refine ⟨fun h3 hp => htake _ (accessCheckEL1_of_priority h3 hp), fun hp => ⟨fun h64 => ?_, fun h32 => ?_, ?_⟩⟩
  · exact htake _ (accessCheckEL1_of_el2AArch64 hp h64)
  · exact htake _ (accessCheckEL1_of_el2AArch32 hp h32)
  · intro h64 h32 h3
    rw [htake _ (accessCheckEL1_of_el3 hp h64 h32 h3), takeException_el3]

/-- Settles O28: the EL2 block has rows for the EL3 control alone, and without it the access is allowed. -/
theorem accessFromEl2IsStoppedOnlyByEl3 : Obligations.AccessFromEl2IsStoppedOnlyByEl3 := by
  intro i s t hw ht hc hf hel
  refine ⟨fun h3 => ?_, fun h3 => ?_⟩
  · have he := (accessCheck_of_el2 hf hel).trans (accessCheckEL2_of_el3 h3)
    rw [exec_take i s _ hw hc he, takeException_el3]
  · exact exec_accesses hw ht hc ⟨hf, .inr (.inl ⟨hel, h3⟩)⟩

/-! ## Which faults an instruction ends in -/

/-- An instruction ends in a fault exactly when it is admitted, its condition passes and `Check` takes that exception. -/
theorem exec_fault_iff (i : Instr) (s : State) (f : Fault) :
    exec i s = .fault f ↔ i.wf = true ∧ condPasses (instrCondition i s.ctx) s.flags = true
      ∧ ∃ e, accessCheck s.config s.ctx = .take e ∧ takeException e (.instr i) = .fault f := by
  constructor
  · intro h
    cases hw : i.wf with
    | false => simp [exec_of_not_wf i s hw] at h
    | true => exact ⟨rfl, exec_fault i s f h⟩
  · rintro ⟨hw, hc, e, he, hf⟩
    exact (exec_take i s e hw hc he).trans hf

theorem exec_ne_fault_of_allowed (i : Instr) {s : State} (ha : AccessAllowed s.config s.ctx) (f : Fault) :
    exec i s ≠ .fault f := by
  intro h
  obtain ⟨-, e, he, -⟩ := exec_fault i s f h
  obtain ⟨hna, -⟩ := accessCheck_take _ _ _ he
  exact hna ha

/-- Settles O29: at EL3 the access is allowed, whatever the controls. -/
theorem accessFromEl3IsNeverTrapped : Obligations.AccessFromEl3IsNeverTrapped := by
  intro i s t hw ht hc hf hel
  have ha : AccessAllowed s.config s.ctx := ⟨hf, .inl hel⟩
  exact ⟨exec_ne_fault_of_allowed i ha, exec_accesses hw ht hc ha⟩

/-- Two encodings with the same conditions meet the same result of `Check`, so a fault that depends on the instruction only as
its cause is taken by both or by neither. -/
theorem exec_fault_congr {i j : Instr} {s : State} (hw : i.wf = j.wf)
    (hc : instrCondition i s.ctx = instrCondition j s.ctx) (F : Cause → Fault)
    (hF : ∀ e, takeException e (.instr i) = .fault (F (.instr i)) ↔ takeException e (.instr j) = .fault (F (.instr j))) :
    exec i s = .fault (F (.instr i)) ↔ exec j s = .fault (F (.instr j)) := by
  simp only [exec_fault_iff, hw, hc, hF]

theorem takeException_eq_undefined_iff (e : ExceptionKind) (c : Cause) :
    takeException e c = .fault (.undefined c) ↔ e = .undefined := by
  cases e <;> simp [takeException]

theorem takeException_eq_hypTrap_iff (e : ExceptionKind) (v : Nat) (c : Cause) :
    takeException e c = .fault (.hypTrap v c) ↔ e = .hypTrap ∧ trapValue = v := by
  cases e <;> simp [takeException]

theorem takeException_eq_sysAccessTrap_iff (e : ExceptionKind) (el : ExceptionLevel) (v : Nat) (c : Cause) :
    takeException e c = .fault (.sysAccessTrap el v c) ↔ e = .sysAccessTrap el ∧ trapValue = v := by
  cases e <;> simp [takeException]

/-- The exceptions of 60 R100 to R103, between two encodings with the same conditions. -/
theorem exec_same_exceptions {i j : Instr} {s : State} (hw : i.wf = j.wf)
    (hc : instrCondition i s.ctx = instrCondition j s.ctx) :
    (exec i s = .fault (.undefined (.instr i)) ↔ exec j s = .fault (.undefined (.instr j)))
      ∧ (∀ v, exec i s = .fault (.hypTrap v (.instr i)) ↔ exec j s = .fault (.hypTrap v (.instr j)))
      ∧ ∀ el v, exec i s = .fault (.sysAccessTrap el v (.instr i)) ↔ exec j s = .fault (.sysAccessTrap el v (.instr j)) := by
  refine ⟨exec_fault_congr hw hc .undefined ?_, fun v => exec_fault_congr hw hc (.hypTrap v) ?_,
    fun el v => exec_fault_congr hw hc (.sysAccessTrap el v) ?_⟩
  · simp only [takeException_eq_undefined_iff, implies_true]
  · simp only [takeException_eq_hypTrap_iff, implies_true]
  · simp only [takeException_eq_sysAccessTrap_iff, implies_true]

/-- Settles O33: MRC and MCR of one condition and register differ in their direction, which no condition of a fault reads. -/
theorem readAndWriteTakeTheSameExceptions : Obligations.ReadAndWriteTakeTheSameExceptions := by
  intro s c rt
  obtain ⟨hundefA, hhypA, hsysA⟩ := exec_same_exceptions (i := .mrcA32 c rt) (j := .mcrA32 c rt) (s := s) rfl rfl
  obtain ⟨hundefT, hhypT, hsysT⟩ := exec_same_exceptions (i := .mrcT32 rt) (j := .mcrT32 rt) (s := s) rfl rfl
  exact ⟨hundefA, hhypA, hsysA, hundefT, hhypT, hsysT⟩

/-- Of the state, a fault depends on the flags, the condition and the result of `Check` alone. -/
theorem exec_fault_congr_state (i : Instr) {s s' : State} (hflags : s'.flags = s.flags)
    (hc : instrCondition i s'.ctx = instrCondition i s.ctx)
    (hcheck : accessCheck s'.config s'.ctx = accessCheck s.config s.ctx) (f : Fault) :
    exec i s = .fault f ↔ exec i s' = .fault f := by
  rw [exec_fault_iff, exec_fault_iff, hflags, hc, hcheck]

/-- No row of `Check` reads the Security state or NSACR (40 R62, fourth consequence). -/
theorem accessCheck_security (cfg : Config) (ctx : Context) (secure cp10 nsasedis nstrcdis : Bool) :
    accessCheck cfg { ctx with
      isSecure := secure, nsacrCp10 := cp10, nsacrNsasedis := nsasedis, nsacrNstrcdis := nstrcdis } =
      accessCheck cfg ctx := rfl

/-- Nor does the condition of an instruction, which in T32 is the IT block's. -/
theorem instrCondition_security (i : Instr) (ctx : Context) (secure cp10 nsasedis nstrcdis : Bool) :
    instrCondition i { ctx with
      isSecure := secure, nsacrCp10 := cp10, nsacrNsasedis := nsasedis, nsacrNstrcdis := nstrcdis } =
      instrCondition i ctx := rfl

/-- Settles O34. -/
theorem nsacrNeverMakesAnAccessTrap : Obligations.NsacrNeverMakesAnAccessTrap := by
  intro i s f secure cp10 nsasedis nstrcdis
  refine exec_fault_congr_state i ?_ ?_ ?_ f
  · rfl
  · exact instrCondition_security i s.ctx secure cp10 nsasedis nstrcdis
  · exact accessCheck_security s.config s.ctx secure cp10 nsasedis nstrcdis

end Sys2Proof.Machine

/-! PROOFS. The family 41_access_control_effects: which gated instructions CPACR makes UNDEFINED (41 R80 to R94). Outside the
window of a write the three controls read one storage, so `step_gated_of_denies` and `step_gated_of_not_denies` settle a step by
`Denies` of that storage; `Cp10Clear` is kept by every step that leaves cp10 at 0b00. -/

namespace Sys2Proof.Machine

/-! ## After a Warm reset (41 R92) -/

/-- A write of a storage whose cp10 is 0b00 can only add the current storage to those that stay visible (70 R126). -/
theorem Cp10Clear.setCpacr {s : State} {S : Cpacr} (h : Cp10Clear s) (hS : S.cp10 = 0b00#2) : Cp10Clear (s.setCpacr S) := by
  obtain ⟨hcur, hpend⟩ := h
  refine ⟨hS, ?_⟩
  cases hm : s.config.syncModel with
  | immediate =>
    rw [setCpacr_pending_of_immediate s S hm]
    exact hpend
  | untilSync =>
    rw [setCpacr_pending_of_untilSync s S hm]
    exact List.forall_mem_append.mpr ⟨hpend, List.forall_mem_singleton.mpr hcur⟩

theorem Cp10Clear.exec {i : Instr} {s s' : State} (hs : Cp10Clear s) (h : Machine.exec i s = .next s')
    (hcp10 : s'.cpacr.cp10 = 0b00#2) : Cp10Clear s' := by
  obtain ⟨t, -, ⟨-, rfl⟩ | ⟨-, -, rfl⟩ | ⟨-, -, -, rfl⟩⟩ := exec_next i s s' h
  · exact hs
  · exact hs
  · exact hs.setCpacr hcp10

theorem cp10Clear_warmReset (s : State) (p : Pe) : Cp10Clear (s.warmReset p) :=
  ⟨rfl, List.forall_mem_nil _⟩

theorem Cp10Clear.effect {s : State} (hs : Cp10Clear s) (e : Input) (hcp10 : (e.effect s).cpacr.cp10 = 0b00#2) :
    Cp10Clear (e.effect s) := by
  cases e with
  | proceed | setContext | gated | externalDebugTraceAccess | storeByte => exact hs
  | contextSync => exact ⟨hcp10, List.forall_mem_nil _⟩
  | warmReset p => exact cp10Clear_warmReset s p
  | cpacrEl1Write S => exact hs.setCpacr hcp10

/-- Neither what an instruction nor what an entry of the schedule leaves makes another cp10 visible, unless it stores one. -/
theorem Cp10Clear.step {s s' : State} (hs : Cp10Clear s) (h : Machine.step s = .next s')
    (hcp10 : s'.cpacr.cp10 = 0b00#2) : Cp10Clear s' := by
  obtain ⟨i, l, hexec⟩ | ⟨e, rest, -, rfl⟩ := step_next_cases h
  · exact Cp10Clear.exec (s := { s with inputs := l }) hs hexec hcp10
  · exact Cp10Clear.effect (s := { s with inputs := rest }) hs e hcp10

/-- Whichever storage a consultation sees, its cp10 is 0b00. -/
theorem Cp10Clear.seenCpacr_cp10 {s : State} (hs : Cp10Clear s) (k : Nat) : (s.seenCpacr k).cp10 = 0b00#2 := by
  obtain ⟨hcur, hpend⟩ := hs
  obtain h | h := seenCpacr_mem s k
  · rw [h]
    exact hcur
  · exact hpend _ h

/-- Settles O50: a Warm reset establishes `Cp10Clear`, `Cp10Clear.step` keeps it, and under it cp10 denies in whichever storage
the gate consults. -/
theorem fpIsUndefinedAfterWarmResetUntilCp10IsWritten : Obligations.FpIsUndefinedAfterWarmResetUntilCp10IsWritten := by
  refine ⟨fun s p rest hi => ?_, fun s s' hs h hcp10 => hs.step h hcp10, fun s g p rest hs hi hg hp => ?_⟩
  · exact ⟨_, step_warmReset s p rest hi, cp10Clear_warmReset _ p⟩
  · have hdenies : Cp10Denies s.config s.ctx (s.seenCpacr s.gateDraws.pickCp10) s.gateDraws.pl0 :=
      .inr (.inr (.inl (hs.seenCpacr_cp10 _)))
    exact step_gated_of_makesUndefined hi hp
      ((cpacrMakesUndefined_iff s g _ hp.el_ne_el2).mpr (.inl ⟨hg, hdenies⟩))

/-! ## What each control denies -/

section controls

variable {cfg : Config} {ctx : Context} {S : Cpacr}

/-- cp10 and ASEDIS decide about the class of 41 R82, TRCDIS about trace accesses (41 R91). -/
theorem denies_iff_of_ne_trace {Sc Sa St : Cpacr} {pl0 trcdis : Bool} {g : GatedInstr}
    (hg : g ≠ .traceSystemRegisterAccess) :
    Denies cfg ctx Sc Sa St pl0 trcdis g ↔
      Cp10Denies cfg ctx Sc pl0 ∨ (g = .advancedSimdOnly ∧ AsedisBehavesAs1 cfg ctx Sa) := by
  simp only [Denies, ne_eq, hg, not_false_eq_true, true_and, false_and, or_false]

theorem denies_trace_iff {Sc Sa St : Cpacr} {pl0 trcdis : Bool} :
    Denies cfg ctx Sc Sa St pl0 trcdis .traceSystemRegisterAccess ↔ TrcdisBehavesAs1 cfg ctx St trcdis := by
  simp only [Denies, ne_eq, not_true_eq_false, reduceCtorEq, true_and, false_and, false_or]

theorem AsedisBehavesAs0.not_behavesAs1 (h : AsedisBehavesAs0 cfg ctx S) : ¬ AsedisBehavesAs1 cfg ctx S := by
  obtain ⟨hns, hstored⟩ := h
  rintro ⟨-, h1 | ⟨hrw, hset⟩⟩
  · exact hns h1
  · simp [hrw, hset] at hstored

/-- Where cp10 is the stored one, its value decides (41 R81, R83). -/
theorem cp10Denies_iff_stored {pl0 : Bool} (hf : cfg.haveFPASIMD = true)
    (hn : ¬ (NonSecureView cfg ctx ∧ ctx.nsacrCp10 = false)) :
    Cp10Denies cfg ctx S pl0 ↔
      S.cp10 = 0b00#2
        ∨ (S.cp10 = 0b01#2 ∧ ctx.el = .el0)
        ∨ (S.cp10 = 0b10#2
          ∧ (cfg.cp10Reserved = .as00 ∨ (cfg.cp10Reserved = .as01 ∧ ctx.el = .el0)
            ∨ (cfg.cp10Reserved = .pl1undef ∧ (ctx.el ≠ .el0 ∨ pl0 = true)))) := by
  have hpresent : ¬ cfg.haveFPASIMD = false := by simp [hf]
  exact (or_iff_right hpresent).trans (or_iff_right hn)

/-- A cp10 that permits the level does not deny it, whatever the free outcome of `pl1undef` (41 R81, R83). -/
theorem Cp10Permits.not_denies {pl0 : Bool} (h : Cp10Permits cfg ctx S) (hf : cfg.haveFPASIMD = true)
    (hn : ¬ (NonSecureView cfg ctx ∧ ctx.nsacrCp10 = false)) : ¬ Cp10Denies cfg ctx S pl0 := by
  rw [cp10Denies_iff_stored hf hn]
  obtain h11 | ⟨h01, hel⟩ | ⟨h10, has11 | ⟨has01, hel⟩⟩ := h
  · simp [h11]
  · simp [h01, hel]
  · simp [h10, has11]
  · simp [h10, has01, hel]

/-- Where cp10 permits and ASEDIS does not disable, no control denies an instruction of the class of 41 R82. -/
theorem Cp10Permits.not_denies_class {Sa St : Cpacr} {pl0 trcdis : Bool} {g : GatedInstr} (h : Cp10Permits cfg ctx S)
    (hf : cfg.haveFPASIMD = true) (hn : ¬ (NonSecureView cfg ctx ∧ ctx.nsacrCp10 = false))
    (hg : g ≠ .traceSystemRegisterAccess) (ha : g = .advancedSimdOnly → AsedisBehavesAs0 cfg ctx Sa) :
    ¬ Denies cfg ctx S Sa St pl0 trcdis g := by
  rw [denies_iff_of_ne_trace hg]
  rintro (hcp10 | ⟨hsimd, hasedis⟩)
  · exact h.not_denies hf hn hcp10
  · exact (ha hsimd).not_behavesAs1 hasedis

/-- TRCDIS behaves as 0 where it is RES0, or not overridden and RAZ/WI or stored as 0 (10 R19). -/
theorem not_trcdisBehavesAs1 {draw : Bool}
    (h : cfg.haveTraceSysRegs = false
      ∨ (¬ (NonSecureView cfg ctx ∧ ctx.nsacrNstrcdis = true) ∧ (cfg.trcdisRW = false ∨ S.trcdis = .known false))) :
    ¬ TrcdisBehavesAs1 cfg ctx S draw := by
  rintro ⟨htrace, h1⟩
  obtain habsent | ⟨hns, hrazwi | hstored⟩ := h
  · simp [habsent] at htrace
  · obtain hover | ⟨hrw, -⟩ := h1
    · exact hns hover
    · simp [hrazwi] at hrw
  · obtain hover | ⟨-, hset⟩ := h1
    · exact hns hover
    · simp [hstored] at hset

/-- A stored TRCDIS that is `unknown`, RW and not overridden behaves as it is drawn (10 R19). -/
theorem trcdisBehavesAs1_iff_draw {draw : Bool} (htrace : cfg.haveTraceSysRegs = true) (hrw : cfg.trcdisRW = true)
    (hunknown : S.trcdis = .unknown) (hns : ¬ (NonSecureView cfg ctx ∧ ctx.nsacrNstrcdis = true)) :
    TrcdisBehavesAs1 cfg ctx S draw ↔ draw = true := by
  rw [TrcdisBehavesAs1, or_iff_right hns]
  simp [htrace, hrw, hunknown]

end controls

/-! ## A step with no earlier storage visible -/

section oneStorage

variable {s : State} {g : GatedInstr} {p : Pe} {rest : List Input}

/-- With no earlier storage visible the three controls read the storage as it is. -/
theorem cpacrMakesUndefined_iff_of_pending_nil (u : GateDraws) (hpend : s.pending = [])
    (hp : GatedPrivilege s.config s.ctx) :
    s.cpacrMakesUndefined g u = true ↔ Denies s.config s.ctx s.cpacr s.cpacr s.cpacr u.pl0 u.trcdis g := by
  simp only [cpacrMakesUndefined_iff s g u hp.el_ne_el2, seenCpacr_of_pending_nil s _ hpend]

theorem step_gated_of_denies (hi : s.inputs = .gated g p :: rest) (hpend : s.pending = [])
    (hp : GatedPrivilege s.config s.ctx) (h : ∀ pl0 trcdis, Denies s.config s.ctx s.cpacr s.cpacr s.cpacr pl0 trcdis g) :
    step s = .fault (.undefined (.gated g)) :=
  step_gated_of_makesUndefined hi hp ((cpacrMakesUndefined_iff_of_pending_nil _ hpend hp).mpr (h _ _))

/-- But for the trace access of R88, an instruction that no control denies completes. -/
theorem step_gated_of_not_denies (hi : s.inputs = .gated g p :: rest) (hpend : s.pending = [])
    (hp : GatedPrivilege s.config s.ctx) (hel0 : el0TraceUndefined s.config s.ctx g = false)
    (h : ∀ pl0 trcdis, ¬ Denies s.config s.ctx s.cpacr s.cpacr s.cpacr pl0 trcdis g) :
    step s = .next ((State.setPe { s with inputs := rest } p).countDraws gateDrawCount) :=
  step_gated_of_not_makesUndefined hi hp hel0
    (Bool.eq_false_iff.mpr (mt (cpacrMakesUndefined_iff_of_pending_nil _ hpend hp).mp (h _ _)))

/-- R88 concerns trace accesses alone. -/
theorem el0TraceUndefined_of_ne_trace (cfg : Config) (ctx : Context) (hg : g ≠ .traceSystemRegisterAccess) :
    el0TraceUndefined cfg ctx g = false :=
  Bool.eq_false_iff.mpr fun h => hg ((el0TraceUndefined_iff cfg ctx g).mp h).1

/-- A cp10 that denies the level makes every instruction of its class UNDEFINED (41 R81, R83). -/
theorem step_gated_of_cp10Denies (hi : s.inputs = .gated g p :: rest) (hpend : s.pending = [])
    (hp : GatedPrivilege s.config s.ctx) (hg : g ≠ .traceSystemRegisterAccess)
    (h : ∀ pl0, Cp10Denies s.config s.ctx s.cpacr pl0) : step s = .fault (.undefined (.gated g)) :=
  step_gated_of_denies hi hpend hp fun pl0 _ => .inl ⟨hg, h pl0⟩

/-- A cp10 that permits the level lets an instruction of its class complete, unless ASEDIS disables it (41 R81, R83, R85). -/
theorem step_gated_of_cp10Permits (hi : s.inputs = .gated g p :: rest) (hpend : s.pending = [])
    (hp : GatedPrivilege s.config s.ctx) (hf : s.config.haveFPASIMD = true)
    (hn : ¬ (NonSecureView s.config s.ctx ∧ s.ctx.nsacrCp10 = false)) (hg : g ≠ .traceSystemRegisterAccess)
    (ha : g = .advancedSimdOnly → AsedisBehavesAs0 s.config s.ctx s.cpacr)
    (hcp10 : Cp10Permits s.config s.ctx s.cpacr) :
    step s = .next ((State.setPe { s with inputs := rest } p).countDraws gateDrawCount) :=
  step_gated_of_not_denies hi hpend hp (el0TraceUndefined_of_ne_trace _ _ hg)
    fun _ _ => hcp10.not_denies_class hf hn hg ha

end oneStorage

/-- Settles O42. -/
theorem cp10GrantsFpByPrivilege : Obligations.Cp10GrantsFpByPrivilege := by
  intro s g p rest hi hpend hp hf hn hg
  refine ⟨fun h00 => ?_, fun h01 hel => ?_, fun ha hpermits => ?_⟩
  · exact step_gated_of_cp10Denies hi hpend hp hg fun _ => (cp10Denies_iff_stored hf hn).mpr (.inl h00)
  · exact step_gated_of_cp10Denies hi hpend hp hg fun _ => (cp10Denies_iff_stored hf hn).mpr (.inr (.inl ⟨h01, hel⟩))
  · have hcp10 : Cp10Permits s.config s.ctx s.cpacr := hpermits.elim (fun h01 => .inr (.inl h01)) .inl
    exact ⟨_, step_gated_of_cp10Permits hi hpend hp hf hn hg ha hcp10, rfl, rfl, rfl, rfl, rfl, rfl, rfl, rfl, rfl⟩

/-- Settles O43: each choice gives the reserved value a clause of `Cp10Denies` or of `Cp10Permits`, and under `pl1undef` at PL0
only the draw is left. -/
theorem reservedCp10BehavesAsTheChosenOption : Obligations.ReservedCp10BehavesAsTheChosenOption := by
  intro s g p rest hi hpend hp hf hn hg h10
  have hdenied (h : s.config.cp10Reserved = .as00 ∨ (s.config.cp10Reserved = .as01 ∧ s.ctx.el = .el0)
      ∨ (s.config.cp10Reserved = .pl1undef ∧ s.ctx.el ≠ .el0)) : step s = .fault (.undefined (.gated g)) := by
    refine step_gated_of_cp10Denies hi hpend hp hg fun pl0 => (cp10Denies_iff_stored hf hn).mpr (.inr (.inr ⟨h10, ?_⟩))
    exact h.imp_right (.imp_right (.imp_right .inl))
  refine ⟨fun h => hdenied (.inl h), fun h hel => hdenied (.inr (.inl ⟨h, hel⟩)),
    fun h hel => hdenied (.inr (.inr ⟨h, hel⟩)), fun ha => ⟨fun h => ?_, fun h hel u => ?_⟩⟩
  · have hcp10 : Cp10Permits s.config s.ctx s.cpacr := .inr (.inr ⟨h10, h.symm⟩)
    exact ⟨_, step_gated_of_cp10Permits hi hpend hp hf hn hg ha hcp10, rfl, rfl, rfl⟩
  · have hasedis : ¬ (g = .advancedSimdOnly ∧ AsedisBehavesAs1 s.config s.ctx s.cpacr) :=
      fun hsimd => (ha hsimd.1).not_behavesAs1 hsimd.2
    have hcp10 : Cp10Denies s.config s.ctx s.cpacr u.pl0 ↔ u.pl0 = true := by
      rw [cp10Denies_iff_stored hf hn]
      simp [h10, h, hel]
    rw [Bool.eq_iff_iff, cpacrMakesUndefined_iff_of_pending_nil u hpend hp, denies_iff_of_ne_trace hg,
      or_iff_left hasedis, hcp10]

/-! ## ASEDIS, TRCDIS and the trace accesses -/

/-- Under the same parameters and context, gates differ only where the test of 41 R91 does. -/
theorem gate_congr {s s' : State} {g : GatedInstr} (hcfg : s'.config = s.config) (hctx : s'.ctx = s.ctx)
    (h : s'.cpacrMakesUndefined g s'.gateDraws = s.cpacrMakesUndefined g s.gateDraws) : s'.gate g = s.gate g := by
  simp only [State.gate, hcfg, hctx, h]

/-- The value of ASEDIS enters the gate of an Advanced SIMD only encoding alone (41 R85). -/
theorem gate_asedis {s : State} {g : GatedInstr} (b : Bool) (hpend : s.pending = []) (hp : GatedPrivilege s.config s.ctx)
    (hg : g ≠ .advancedSimdOnly) : State.gate { s with cpacr := { s.cpacr with asedis := b } } g = s.gate g := by
  refine gate_congr (s := s) rfl rfl ?_
  rw [Bool.eq_iff_iff, cpacrMakesUndefined_iff_of_pending_nil _ hpend hp,
    cpacrMakesUndefined_iff_of_pending_nil (s := { s with cpacr := { s.cpacr with asedis := b } }) _ hpend hp]
  exact or_congr Iff.rfl (or_congr (iff_of_false (fun h => hg h.1) fun h => hg h.1) Iff.rfl)

/-- Settles O45. -/
theorem asedisDisablesOnlyAdvancedSimd : Obligations.AsedisDisablesOnlyAdvancedSimd := by
  intro s p rest hpend hf hp
  refine ⟨fun hi => ⟨fun h1 => ?_, fun h0 hn hcp10 => ?_⟩, fun g b hg => gate_asedis b hpend hp hg⟩
  · exact step_gated_of_denies hi hpend hp fun _ _ => .inr (.inl ⟨rfl, hf, h1⟩)
  · exact ⟨_, step_gated_of_cp10Permits hi hpend hp hf hn (by decide) (fun _ => h0) hcp10, rfl, rfl, rfl⟩

/-- Settles O46. -/
theorem trcdisTrapsTraceAccesses : Obligations.TrcdisTrapsTraceAccesses := by
  intro s p rest hi hpend hp
  refine ⟨fun htrace h1 => ?_, fun hfeat h0 => ?_, fun htrace hrw hunknown hns u => ?_⟩
  · exact step_gated_of_denies hi hpend hp fun _ _ =>
      denies_trace_iff.mpr ⟨htrace, h1.imp_right fun ⟨hrw, hset⟩ => ⟨hrw, .inl hset⟩⟩
  · have hel0 : el0TraceUndefined s.config s.ctx .traceSystemRegisterAccess = false := by
      refine Bool.eq_false_iff.mpr fun h => ?_
      obtain ⟨-, hel, hany⟩ := (el0TraceUndefined_iff _ _ _).mp h
      simp [hfeat hel] at hany
    exact ⟨_, step_gated_of_not_denies hi hpend hp hel0 fun _ _ => mt denies_trace_iff.mp (not_trcdisBehavesAs1 h0),
      rfl, rfl, rfl⟩
  · rw [Bool.eq_iff_iff, cpacrMakesUndefined_iff_of_pending_nil u hpend hp, denies_trace_iff,
      trcdisBehavesAs1_iff_draw htrace hrw hunknown hns]

/-- Settles O47: R88 comes before the gate asks for a rule or reads the storage. -/
theorem el0TraceAccessIsUndefined : Obligations.El0TraceAccessIsUndefined := by
  intro s p rest hi hfeat hel
  have hel0 := (el0TraceUndefined_iff s.config s.ctx .traceSystemRegisterAccess).mpr ⟨rfl, hel, hfeat⟩
  exact step_gated_undefined s _ p rest hi ((gate_eq_undefined_iff s _).mpr (.inl hel0))

/-- Settles O53. -/
theorem externalDebugAccessIsNeverTrapped : Obligations.ExternalDebugAccessIsNeverTrapped := by
  intro s rest hi
  exact step_cons s .externalDebugTraceAccess rest hi

/-! ## Where the spec gives no gating rule -/

/-- The places that 41 R94 and 00 R2 leave without a rule. -/
theorem gatingSpecified_eq_false_iff (cfg : Config) (ctx : Context) :
    gatingSpecified cfg ctx = false ↔
      (ctx.el = .el0 ∧ ctx.el1UsingAArch32 = false) ∨ (ctx.el ≠ .el2 ∧ cfg.featAA32EL1 = false) := by
  unfold gatingSpecified
  cases ctx.el with
  | el0 => cases cfg.featAA32EL1 <;> simp [privilegeLevel]
  | el1 | el2 | el3 => simp [privilegeLevel]

theorem gate_eq_notSpecified_iff (s : State) (g : GatedInstr) :
    s.gate g = .notSpecified ↔ el0TraceUndefined s.config s.ctx g = false ∧ gatingSpecified s.config s.ctx = false := by
  unfold State.gate
  cases el0TraceUndefined s.config s.ctx g <;> cases gatingSpecified s.config s.ctx <;>
    cases s.cpacrMakesUndefined g s.gateDraws <;> simp

theorem execGated_notSpecified (g : GatedInstr) (p : Pe) (s : State) (h : s.gate g = .notSpecified) :
    execGated g p s = .refused (.gatingNotSpecified g) := by
  simp [execGated, h]

/-- Settles O48. -/
theorem gatingWithoutARuleIsRefused : Obligations.GatingWithoutARuleIsRefused := by
  intro s g p rest hi hnot88 hnorule
  have hel0 : el0TraceUndefined s.config s.ctx g = false :=
    Bool.eq_false_iff.mpr (mt (el0TraceUndefined_iff _ _ _).mp hnot88)
  have hgate : s.gate g = .notSpecified :=
    (gate_eq_notSpecified_iff s g).mpr ⟨hel0, (gatingSpecified_eq_false_iff _ _).mpr hnorule⟩
  rw [step_cons s _ rest hi]
  exact execGated_notSpecified g p { s with inputs := rest } hgate

/-! ## cp11 is ignored (41 R84) -/

/-- What is done to every visible storage is done to the one that a consultation sees. -/
theorem seenCpacr_map (s : State) (f : Cpacr → Cpacr) (k : Nat) :
    State.seenCpacr { s with cpacr := f s.cpacr, pending := s.pending.map f } k = f (s.seenCpacr k) := by
  cases hm : s.config.syncModel with
  | immediate => simp [State.seenCpacr, hm]
  | untilSync => simp only [State.seenCpacr, hm, List.length_map, List.getD_map]

/-- No effective value reads cp11 (41 R84). -/
@[simp] theorem effAsedis_cp11 (cfg : Config) (ctx : Context) (S : Cpacr) (x : BitVec 2) :
    effAsedis cfg ctx { S with cp11 := x } = effAsedis cfg ctx S := rfl
@[simp] theorem effTrcdis_cp11 (cfg : Config) (ctx : Context) (S : Cpacr) (x : BitVec 2) (draw : Bool) :
    effTrcdis cfg ctx { S with cp11 := x } draw = effTrcdis cfg ctx S draw := rfl
@[simp] theorem effCp10_cp11 (cfg : Config) (ctx : Context) (S : Cpacr) (x : BitVec 2) :
    effCp10 cfg ctx { S with cp11 := x } = effCp10 cfg ctx S := rfl

theorem cpacrMakesUndefined_cp11 (s : State) (x : BitVec 2) (g : GatedInstr) (u : GateDraws) :
    State.cpacrMakesUndefined
      { s with cpacr := { s.cpacr with cp11 := x }, pending := s.pending.map fun S => { S with cp11 := x } } g u
      = s.cpacrMakesUndefined g u := by
  simp only [State.cpacrMakesUndefined, seenCpacr_map s fun S => { S with cp11 := x }, effAsedis_cp11, effTrcdis_cp11,
    effCp10_cp11]

/-- A direct read takes cp11 into its own bits alone (10 R23, R28). -/
theorem cpacrRead_cp11_getLsbD (cfg : Config) (ctx : Context) (S : Cpacr) (x : BitVec 2) (u : ReadDraws) {k : Nat}
    (hk : CpacrField.cp11.mask.getLsbD k = false) :
    (cpacrRead cfg ctx { S with cp11 := x } u).getLsbD k = (cpacrRead cfg ctx S u).getLsbD k := by
  have houtside : k < 22 ∨ ¬ k < 24 := by
    rw [CpacrField.mask_getLsbD, decide_eq_false_iff_not] at hk
    simp only [CpacrField.lsb, CpacrField.width] at hk
    omega
  simp only [cpacrRead_getLsbD]
  obtain hbelow | habove := houtside
  · rw [if_pos hbelow, if_pos hbelow]
    rfl
  · have hcp10 : ¬ k < 22 := by omega
    rw [if_neg hcp10, if_neg hcp10, if_neg habove, if_neg habove]
    rfl

/-- Settles O49. -/
theorem cp11IsIgnored : Obligations.Cp11IsIgnored := by
  intro s x
  refine ⟨cpacrMakesUndefined_cp11 s x, fun i f => ?_, fun u => ?_⟩
  · exact exec_fault_congr_state i (s := { s with cpacr := { s.cpacr with cp11 := x } }) (s' := s) rfl rfl rfl f
  · have hmask : 0x00C00000#32 = CpacrField.cp11.mask := by decide
    rw [hmask]
    apply BitVec.eq_of_getLsbD_eq
    intro k hk
    rw [BitVec.getLsbD_and, BitVec.getLsbD_and, BitVec.getLsbD_not]
    cases hcp11 : CpacrField.cp11.mask.getLsbD k with
    | true => simp
    | false => rw [cpacrRead_cp11_getLsbD _ _ _ _ _ hcp11]

end Sys2Proof.Machine

/-! PROOFS. The family 60_exceptions: where each trap is raised (60 R101 to R103). `exec_fault_cases` says once which faults an
instruction can end in and what holds there; no fault carries a state, so none of them writes anything. -/

namespace Sys2Proof.Machine

/-- The four outcomes of 60 R100 to R103, each with its value, its cause and the rows of `Check` that raise it. -/
theorem exec_fault_cases {i : Instr} {s : State} {f : Fault} (h : exec i s = .fault f) :
    f = .undefined (.instr i)
      ∨ (f = .hypTrap 0x03 (.instr i) ∧ s.ctx.el = .el1 ∧ El2AArch32TrapsAccess s.config s.ctx)
      ∨ (f = .sysAccessTrap .el2 0x03 (.instr i) ∧ s.ctx.el = .el1 ∧ El2AArch64TrapsAccess s.config s.ctx)
      ∨ (f = .sysAccessTrap .el3 0x03 (.instr i)
        ∧ (s.ctx.el = .el2 ∨ s.ctx.el = .el1 ∧ ¬ El2AArch64TrapsAccess s.config s.ctx
          ∧ ¬ El2AArch32TrapsAccess s.config s.ctx)
        ∧ El3ControlsAccess s.config s.ctx ∧ s.ctx.el3SDDUndef = false) := by
  obtain ⟨-, e, he, hf⟩ := exec_fault i s f h
  obtain ⟨-, rfl | ⟨rfl, h32⟩ | ⟨rfl, h64⟩ | ⟨rfl, h3⟩⟩ := accessCheck_take _ _ _ he
  · exact .inl (Host.Outcome.fault.inj hf).symm
  · exact .inr (.inl ⟨(Host.Outcome.fault.inj hf).symm, h32⟩)
  · exact .inr (.inr (.inl ⟨(Host.Outcome.fault.inj hf).symm, h64⟩))
  · exact .inr (.inr (.inr ⟨(Host.Outcome.fault.inj hf).symm, h3⟩))

/-- Settles O30. -/
theorem hypTrapIsRaisedOnlyByEl2AArch32 : Obligations.HypTrapIsRaisedOnlyByEl2AArch32 := by
  intro i s v c h
  obtain hf | ⟨hf, hel, h32⟩ | ⟨hf, -⟩ | ⟨hf, -⟩ := exec_fault_cases h
  · cases hf
  · obtain ⟨rfl, rfl⟩ := Fault.hypTrap.inj hf
    exact ⟨rfl, rfl, hel, h32⟩
  · cases hf
  · cases hf

/-- Settles O31. -/
theorem trapToEl2IsRaisedOnlyByEl2AArch64 : Obligations.TrapToEl2IsRaisedOnlyByEl2AArch64 := by
  intro i s v c h
  obtain hf | ⟨hf, -⟩ | ⟨hf, hel, h64⟩ | ⟨hf, -⟩ := exec_fault_cases h
  · cases hf
  · cases hf
  · obtain ⟨-, rfl, rfl⟩ := Fault.sysAccessTrap.inj hf
    exact ⟨rfl, rfl, hel, h64⟩
  · cases hf

/-- Where the EL3 control applies and no EL2 trap comes first, `EL3SDDUndef()` turns the trap into Undefined (60 R103), whether
or not `EL3SDDUndefPriority()` has already done so; with the register absent the access is Undefined as well. -/
theorem accessCheck_of_el3SDDUndef {cfg : Config} {ctx : Context} (hd : ctx.el3SDDUndef = true)
    (h3 : El3ControlsAccess cfg ctx)
    (hel : ctx.el = .el2 ∨ (ctx.el = .el1 ∧ ¬ El2AArch64TrapsAccess cfg ctx ∧ ¬ El2AArch32TrapsAccess cfg ctx)) :
    accessCheck cfg ctx = .take .undefined := by
  cases hf : cfg.featAA32EL1 with
  | false => exact accessCheck_of_absent cfg ctx hf
  | true =>
    obtain hel2 | ⟨hel1, h64, h32⟩ := hel
    · rw [accessCheck_of_el2 hf hel2, accessCheckEL2_of_el3 h3, if_pos (.inr hd)]
    · rw [accessCheck_of_el1 hf hel1]
      by_cases hp : ctx.el3SDDUndefPriority = true
      · exact accessCheckEL1_of_priority h3 hp
      · rw [accessCheckEL1_of_el3 (fun h => hp h.2) h64 h32 h3, if_pos hd]

/-- Settles O32. -/
theorem trapToEl3IsRaisedOnlyByTheEl3Control : Obligations.TrapToEl3IsRaisedOnlyByTheEl3Control := by
  refine fun i s => ⟨fun v c h => ?_, fun hw hc hd h3 hel => ?_⟩
  · obtain hf | ⟨hf, -⟩ | ⟨hf, -⟩ | ⟨hf, hel, ⟨hhave, hfeat, h64, htcpac⟩, hd⟩ := exec_fault_cases h
    · cases hf
    · cases hf
    · cases hf
    · obtain ⟨-, rfl, rfl⟩ := Fault.sysAccessTrap.inj hf
      refine ⟨rfl, rfl, ?_, hhave, hfeat, h64, htcpac, hd, fun hel1 => ?_⟩
      · exact hel.symm.imp_left And.left
      · obtain hel2 | ⟨-, hnotrap⟩ := hel
        · cases hel1.symm.trans hel2
        · exact hnotrap
  · exact exec_take i s .undefined hw hc (accessCheck_of_el3SDDUndef hd h3 hel)

end Sys2Proof.Machine

/-! PROOFS. The family 70_reset_and_hazards: a Warm reset, the window of a write under each SYNC_MODEL (70 R120 to R126), and
the run of a word of the opcode table. Which storages a consultation sees is `exists_seenCpacr_iff` of Laws/Ops; here it is
applied to the state that an MCR leaves. -/

namespace Sys2Proof.Machine

/-! ## What a Warm reset leaves -/

/-- Settles O8: the step is `State.warmReset`, which leaves no earlier storage visible. -/
theorem warmResetLeavesTheRestToTheEnvironment : Obligations.WarmResetLeavesTheRestToTheEnvironment := by
  intro s p rest hi
  have hseen : ∀ k, (State.warmReset { s with inputs := rest } p).seenCpacr k = Cpacr.reset :=
    fun k => seenCpacr_of_pending_nil _ k rfl
  exact ⟨_, step_warmReset s p rest hi, rfl, rfl, rfl, rfl, rfl, hseen, rfl, rfl, rfl⟩

/-! ## The window of a write -/

/-- Under `immediate` every consultation sees the storage as it is (70 R126). -/
theorem seenCpacr_of_immediate {s : State} (h : s.config.syncModel = .immediate) (k : Nat) : s.seenCpacr k = s.cpacr := by
  simp [State.seenCpacr, h]

/-- A choice with which a consultation sees the storage as it is, under either SYNC_MODEL: the first past the pending ones. -/
theorem seenCpacr_pending_length (s : State) : s.seenCpacr s.pending.length = s.cpacr := by
  cases hm : s.config.syncModel with
  | immediate => exact seenCpacr_of_immediate hm _
  | untilSync => simp [State.seenCpacr, hm]

/-- An MCR whose condition passes and that completes is a direct write of some value (40 R61). -/
theorem exec_write_next_eq {i : Instr} {s s' : State} (h : exec i s = .next s') (hd : i.direction = .write)
    (hc : condPasses (instrCondition i s.ctx) s.flags = true) : ∃ v, s' = s.writeCpacrFrom v := by
  obtain ⟨t, -, ⟨hfails, -⟩ | ⟨hread, -⟩ | ⟨-, -, -, hs'⟩⟩ := exec_next i s s' h
  · exact absurd hc (Bool.eq_false_iff.mp hfails)
  · cases hd.symm.trans hread
  · exact ⟨_, hs'⟩

/-- After a write under `until_sync` the visible storages are the new one, the one from just before it and those still pending
then (70 R126; log 22). -/
theorem visible_writeCpacrFrom_iff {s : State} (hm : s.config.syncModel = .untilSync) (v : Word) (S : Cpacr) :
    Visible (s.writeCpacrFrom v) S ↔ S = (s.writeCpacrFrom v).cpacr ∨ S = s.cpacr ∨ S ∈ s.pending := by
  simp [Visible, hm, or_comm (a := S ∈ s.pending)]

/-- A step that takes a context synchronisation event (70 R126). -/
theorem step_contextSync (s : State) (rest : List Input) (hi : s.inputs = .contextSync :: rest) :
    step s = .next (State.synchronise { s with inputs := rest }) :=
  step_cons s _ rest hi

/-- Settles O51: the MCR is `State.writeCpacrFrom`, a consultation sees the visible storages, and a context synchronisation
event leaves only the current one visible. -/
theorem writeIsVisibleAsTheSyncModelSays : Obligations.WriteIsVisibleAsTheSyncModelSays := by
  intro i s s' hd hc h
  obtain ⟨v, rfl⟩ := exec_write_next_eq h hd hc
  refine ⟨fun hm => seenCpacr_of_immediate (s := s.writeCpacrFrom v) hm, fun hm S => ?_, fun rest s2 h2 => ?_⟩
  · exact (exists_seenCpacr_iff _ S).trans (visible_writeCpacrFrom_iff hm v S)
  · rw [step_contextSync _ rest rfl] at h2
    obtain rfl := Host.Outcome.next.inj h2
    exact ⟨rfl, fun k => seenCpacr_of_pending_nil _ k rfl⟩

/-! ## `until_sync` admits what `immediate` admits -/

/-- No effective value reads SYNC_MODEL: it is about which storage is consulted, not about what a storage says (70 R126). -/
@[simp] theorem effAsedis_syncModel (cfg : Config) (ctx : Context) (S : Cpacr) (m : SyncModel) :
    effAsedis { cfg with syncModel := m } ctx S = effAsedis cfg ctx S := rfl
@[simp] theorem effTrcdis_syncModel (cfg : Config) (ctx : Context) (S : Cpacr) (draw : Bool) (m : SyncModel) :
    effTrcdis { cfg with syncModel := m } ctx S draw = effTrcdis cfg ctx S draw := rfl
@[simp] theorem effCp10_syncModel (cfg : Config) (ctx : Context) (S : Cpacr) (m : SyncModel) :
    effCp10 { cfg with syncModel := m } ctx S = effCp10 cfg ctx S := rfl

/-- The same free values, with every consultation choosing the storage as it is. -/
def GateDraws.choosingCurrent (u : GateDraws) (s : State) : GateDraws :=
  { u with pickCp10 := s.pending.length, pickAsedis := s.pending.length, pickTrcdis := s.pending.length }

/-- Settles O52: the choice `choosingCurrent` under `until_sync` shows each control the storage that `immediate` always shows. -/
theorem untilSyncAdmitsWhatImmediateAdmits : Obligations.UntilSyncAdmitsWhatImmediateAdmits := by
  intro s g u
  have huntil := seenCpacr_pending_length { s with config := { s.config with syncModel := .untilSync } }
  have himm := seenCpacr_of_immediate (s := { s with config := { s.config with syncModel := .immediate } }) rfl
  refine ⟨u.choosingCurrent s, ?_⟩
  simp only [State.cpacrMakesUndefined, GateDraws.choosingCurrent, huntil, himm, effAsedis_syncModel, effTrcdis_syncModel,
    effCp10_syncModel]

/-! ## A table word where the step fetches -/

/-- A fetch reads the bytes of the table word that was placed at `pc` (70 R123; log 10). -/
theorem fetchBytes_withFetchWord (s : State) (nbits w : Nat) :
    (s.withFetchWord nbits w).fetchBytes = .ok (bytesOfWord (tableSet (tableWord nbits w)) (tableWord nbits w)) := by
  have hread := Memory.readBytes_writeBytes (bytesOfWord (tableSet (tableWord nbits w)) (tableWord nbits w)) s.memory s.pc
  rwa [bytesOfWord_length] at hread

/-- Placing a word gives an empty schedule no entry: the next step runs an instruction all the same (log 10). -/
theorem withFetchWord_inputs_of_nil {s : State} (hi : s.inputs = []) (nbits w : Nat) :
    (s.withFetchWord nbits w).inputs = [] := by
  simp [State.withFetchWord, hi]

/-- The instruction of a table word is the one that its bytes decode to. -/
theorem decodeTableWord_eq_some {nbits w : Nat} {i : Instr} (h : decodeTableWord nbits w = some i) :
    ∃ tail, decode (tableSet (tableWord nbits w)) (bytesOfWord (tableSet (tableWord nbits w)) (tableWord nbits w))
      = .ok (i, tail) := by
  simp only [decodeTableWord] at h
  split at h
  · rename_i j tail hd
    obtain rfl := Option.some.inj h
    exact ⟨tail, hd⟩
  · cases h

/-- Settles O56: the step runs an instruction, and the fetch and the decoder meet the bytes of the word. -/
theorem fetchWordRunsTheTableWord : Obligations.FetchWordRunsTheTableWord := by
  intro s nbits w i hi hd
  obtain ⟨tail, hdecode⟩ := decodeTableWord_eq_some hd
  rw [step_nil _ (withFetchWord_inputs_of_nil hi nbits w)]
  exact runInstruction_of_decode (fetchBytes_withFetchWord s nbits w) hdecode

end Sys2Proof.Machine

/-! PROOFS. What every step keeps, where a step stops, what the plain inputs change, and two closed facts: the bytes written
out from the spec's words (95 section 2.6) and the state after reset (10 R38). The statements about whole steps rest on
`step_next_cases` and on what a fetch answers. -/

namespace Sys2Proof.Machine

/-! ## The parameters and the program -/

/-- No instruction writes a parameter or a byte of the program (00 section 5, 20 R40). -/
theorem exec_next_config_memory {i : Instr} {s s' : State} (h : exec i s = .next s') :
    s'.config = s.config ∧ s'.memory = s.memory := by
  obtain ⟨t, -, ⟨-, rfl⟩ | ⟨-, -, rfl⟩ | ⟨-, -, -, rfl⟩⟩ := exec_next i s s' h
  · exact ⟨State.advancePc_config s, State.advancePc_memory s⟩
  · exact ⟨State.readCpacrInto_config s t, State.readCpacrInto_memory s t⟩
  · exact ⟨State.writeCpacrFrom_config s _, State.writeCpacrFrom_memory s _⟩

@[simp] theorem Input.effect_config (e : Input) (s : State) : (e.effect s).config = s.config := by
  cases e <;> rfl

/-- The only entry of the schedule that changes the program is a byte handed to the machine (70 R123). -/
theorem Input.effect_memory (e : Input) (s : State) :
    (∃ a v, e = .storeByte a v) ∨ (e.effect s).memory = s.memory := by
  cases e with
  | storeByte a v => exact .inl ⟨a, v, rfl⟩
  | proceed | setContext | contextSync | warmReset | gated | externalDebugTraceAccess | cpacrEl1Write => exact .inr rfl

/-- Settles O11: neither an instruction nor an entry of the schedule writes a parameter, and of the two only a `storeByte`
entry writes the program. -/
theorem stepKeepsParametersAndProgram : Obligations.StepKeepsParametersAndProgram := by
  intro s s' h
  obtain ⟨i, l, hexec⟩ | ⟨e, rest, hi, rfl⟩ := step_next_cases h
  · obtain ⟨hconfig, hmemory⟩ := exec_next_config_memory hexec
    exact ⟨hconfig, .inr hmemory⟩
  · refine ⟨Input.effect_config e _, ?_⟩
    obtain ⟨a, v, rfl⟩ | hmemory := Input.effect_memory e { s with inputs := rest }
    · exact .inl ⟨a, v, rest, hi⟩
    · exact .inr hmemory

/-! ## Two closed facts -/

/-- Settles O5: the decoder, run on each of the five. -/
theorem writtenOutBytesDecode : Obligations.WrittenOutBytesDecode :=
  ⟨rfl, rfl, rfl, rfl, rfl⟩

/-- Settles O9: an empty program is in canonical form, the reset storage has no reserved bit set, and none is pending. -/
theorem resetStateMeetsTheInvariant : Obligations.ResetStateMeetsTheInvariant :=
  ⟨List.Pairwise.nil, storageHeld_reset _, List.forall_mem_nil _, fun _ => rfl⟩

/-! ## Where a step stops -/

/-- Reading a run of bytes stops at the first address that has none (log 8). -/
theorem Memory.readBytes_of_first_missing (m : Memory) {k : Nat} :
    ∀ {n a : Nat}, k < n → (∀ j, j < k → Memory.read m (a + j) ≠ none) → Memory.read m (a + k) = none →
      Memory.readBytes m a n = .error (a + k) := by
  induction k with
  | zero =>
    intro n a hn _ hmiss
    obtain ⟨n, rfl⟩ := Nat.exists_eq_add_one_of_ne_zero (Nat.ne_zero_of_lt hn)
    rw [Nat.add_zero] at hmiss ⊢
    simp [Memory.readBytes, hmiss]
  | succ k ih =>
    intro n a hn hpresent hmiss
    obtain ⟨n, rfl⟩ := Nat.exists_eq_add_one_of_ne_zero (Nat.ne_zero_of_lt hn)
    obtain ⟨v, hv⟩ := Option.ne_none_iff_exists'.mp (hpresent 0 k.succ_pos)
    have hshift : ∀ j, a + (j + 1) = a + 1 + j := by omega
    have htail : Memory.readBytes m (a + 1) n = .error (a + 1 + k) :=
      ih (Nat.lt_of_succ_lt_succ hn) (fun j hj => hshift j ▸ hpresent (j + 1) (Nat.succ_lt_succ hj)) (hshift k ▸ hmiss)
    rw [Nat.add_zero] at hv
    simp only [Memory.readBytes, hv, htail, hshift k]

/-- Bytes that decode to nothing are refused with the decoder's reason (30 R57). -/
theorem runInstruction_of_decode_error {s : State} {bytes : List Byte} {r : Reject} (hb : s.fetchBytes = .ok bytes)
    (hd : decode s.ctx.iset bytes = .error r) : runInstruction s = .refused (.notDecoded r) := by
  simp [runInstruction, hb, hd]

/-- A fetch that meets no program byte is a fault that names the address (log 8). -/
theorem runInstruction_of_fetch_error {s : State} {a : Nat} (hb : s.fetchBytes = .error a) :
    runInstruction s = .fault (.noProgramByte a) := by
  simp [runInstruction, hb]

/-- Settles O14: the fetch reads the four bytes or stops at the first that is missing. -/
theorem stepStopsWhereNothingDecodes : Obligations.StepStopsWhereNothingDecodes := by
  intro s s0 hrun
  rw [step_of_runsInstruction hrun]
  obtain ⟨l, rfl⟩ := hrun.eq_with_inputs
  refine ⟨fun b0 b1 b2 b3 r h0 h1 h2 h3 hd => ?_, fun k hk hpresent hmiss => ?_⟩
  · have hfetch : State.fetchBytes { s with inputs := l } = .ok [b0, b1, b2, b3] :=
      Memory.readBytes_four s.memory s.pc b0 b1 b2 b3 h0 h1 h2 h3
    exact runInstruction_of_decode_error hfetch hd
  · have hfetch : State.fetchBytes { s with inputs := l } = .error (s.pc + k) :=
      Memory.readBytes_of_first_missing s.memory hk hpresent hmiss
    exact runInstruction_of_fetch_error hfetch

/-! ## The inputs that name one part of the state -/

/-- A step that takes a change of the per-step inputs (10 R33 to R35). -/
theorem step_setContext (s : State) (ctx : Context) (rest : List Input) (hi : s.inputs = .setContext ctx :: rest) :
    step s = .next { s with ctx := ctx, inputs := rest } :=
  step_cons s _ rest hi

/-- A step that takes a byte of the program (70 R123). -/
theorem step_storeByte (s : State) (a : Nat) (v : Byte) (rest : List Input) (hi : s.inputs = .storeByte a v :: rest) :
    step s = .next { s with memory := Memory.write s.memory a v, inputs := rest } :=
  step_cons s _ rest hi

/-- Settles O54: each step is a record update of the named field, and a byte written is read back at its own address alone. -/
theorem inputsChangeOnlyWhatTheyName : Obligations.InputsChangeOnlyWhatTheyName := by
  intro s rest
  refine ⟨fun ctx hi => step_setContext s ctx rest hi, fun hi => step_contextSync s rest hi, fun a v hi => ?_⟩
  exact ⟨_, step_storeByte s a v rest hi, Memory.read_write_same s.memory a v, Memory.read_write_ne s.memory a v,
    rfl, rfl, rfl, rfl, rfl, rfl, rfl, rfl, rfl⟩

end Sys2Proof.Machine
